-- ==== Sys2Proof/Word.lean ====
section
/-! DEFINITION. The word types of I2CMC (R13: REG_WIDTH 32, BYTE_WIDTH 8, SA_WIDTH 7, CNT_WIDTH 16). -/

namespace Sys2Proof

/-- One word of the register bus: 32 bits (R78). -/
abbrev Word := BitVec 32

/-- One payload byte, device register address or register offset: 8 bits (R13, R101). -/
abbrev Byte := BitVec 8

/-- A register-bus request written as one number `{W, OFF, DATA}`: 41 bits (R101). -/
abbrev RbWord := BitVec 41

/-- A command-table entry written as one number `{REG, VAL}`: 16 bits (R102). -/
abbrev CeWord := BitVec 16

end Sys2Proof
end

