-- ==== Sys2Proof/Config.lean ====
section
/-! DEFINITION. What an implementation fixes (the parameters of R13) and the free values (R86, R61, R115).
Every constant declared `opaque` here has no body: nothing in Lean can evaluate it, so whatever is proved holds
for every value of it. -/

namespace Sys2Proof

/-- The open parameters of R13 that a step or a frame of the model mentions. A configuration outside their
domains cannot be written down: I2C_BASE is held as a word number (so it is a multiple of 4, R79), CON_ENABLE as
its bits 31:2 (so bits 1:0 are zero, R110), POLL_BOUND as `none` or a natural number at least 1 (R182). -/
structure Params where
  /-- I2C_BASE divided by 4 (D23). -/
  baseWord : Nat
  /-- Bits 31:2 of CON_ENABLE (D5). -/
  conEnable : BitVec 30
  /-- SETTLE_CYCLES, the least number of no-op cycles of one settling delay (D10). -/
  settleCycles : Nat
  /-- POLL_BOUND: `none` for the reference design, else the most reads one poll makes (D8). -/
  pollBound : Option { b : Nat // 1 ≤ b }
  /-- ON_L_ADDR (D19). -/
  onL : Byte
  /-- ON_H_ADDR (D19). -/
  onH : Byte
  /-- OFF_L_ADDR (D19). -/
  offL : Byte
  /-- OFF_H_ADDR (D19). -/
  offH : Byte
  deriving DecidableEq, Repr

/-- I2C_BASE as a byte address: a multiple of 4 (R79, D23). -/
def Params.i2cBase (p : Params) : Nat := 4 * p.baseWord

/-! ## The parameters of the machine that comes out of reset: open constants -/

opaque Config.baseWord : Nat
opaque Config.conEnable : BitVec 30
opaque Config.settleCycles : Nat
opaque Config.pollBound : Option { b : Nat // 1 ≤ b }
opaque Config.onL : Byte
opaque Config.onH : Byte
opaque Config.offL : Byte
opaque Config.offH : Byte

/-- The parameters fixed before power-on (R74): every one an open constant. DESIGN CHOICE, safe: log 1. -/
def Config.params : Params :=
  { baseWord := Config.baseWord
    conEnable := Config.conEnable
    settleCycles := Config.settleCycles
    pollBound := Config.pollBound
    onL := Config.onL
    onH := Config.onH
    offL := Config.offL
    offH := Config.offH }

/-! ## Free values. The argument `Nat` is the index of the request that draws the value, so each draw is fresh. -/

/-- The environment's answer to a register read, when State supplies none (R86: any 32-bit word). Safe: log 2. -/
opaque Config.readAnswer : Nat → Word

/-- What a controller register holds after an event whose effect on it the spec does not state (the soft reset,
R61; a request outside the twelve, R115; a write of 1 to an undefined status bit, R42), by request index and
register offset. Safe: log 7, log 8, log 9. -/
opaque Config.freeRegister : Nat → Byte → Word

/-- What the hidden byte counter holds where the spec does not say (R61, R172). Safe: log 7, log 8, log 10. -/
opaque Config.freeCounter : Nat → BitVec 16

/-- What the transmit buffer holds where the spec does not say (R55, R61). Safe: log 7, log 8. -/
opaque Config.freeBuffer : Nat → List Byte

/-- Whether a frame is in progress where the spec does not say (R61, R83). Safe: log 7, log 11. -/
opaque Config.freeFraming : Nat → Bool

/-- Whether the data register is empty where the spec does not say (R55, R61). Safe: log 7, log 8. -/
opaque Config.freeDataEmpty : Nat → Bool

/-- The fill threshold of the transmit buffer where the spec does not say (R55, R61). Safe: log 7, log 8. -/
opaque Config.freeThreshold : Nat → Nat

/-- The fill threshold that the FIFO/BUFFER write 0x41 sets (R44, R83): which bits hold it is not in the source (N5), so
its value is open. Safe: log 29. -/
opaque Config.fifoThreshold : Nat

/-- Numerator minus 1 of INPUT_CLOCK_HZ, so that the clock is a positive rational (R13, R146). -/
opaque Config.inputClockNum : Nat

/-- Denominator minus 1 of INPUT_CLOCK_HZ. -/
opaque Config.inputClockDen : Nat

/-- INPUT_CLOCK_HZ, an open positive rational that no step reads (R146). -/
def Config.inputClockHz : Rat :=
  ((Config.inputClockNum + 1 : Nat) : Rat) / ((Config.inputClockDen + 1 : Nat) : Rat)

/-- How many periods of the module clock one bit takes, as a function of CLOCK-LOW + CLOCK-HIGH: the source does
not say whether fixed offsets are added (R146, N7), so the function is open. Safe: log 24. -/
opaque Config.bitPeriodClocks : Nat → Rat

end Sys2Proof
end

