-- ==== Sys2Proof/Syntax.lean ====
section
/-! DEFINITION. The instructions of I2CMC, one constructor of `Instr` per row of spec/opcode_table.json, and the
three encoded spaces RB, CE and HC they are written in (R100 to R103). -/

namespace Sys2Proof

/-- One row of a command table: the device register address, sent first, and the value for it (R201, R102). -/
structure CommandEntry where
  reg : Byte
  val : Byte
  deriving DecidableEq, Repr

/-- The eleven registers of the controller register file, in the order of R40. -/
inductive CtrlReg where
  | softReset | irqStatusRaw | resetStatus | fifoBuffer | byteCount | data
  | control | slaveAddr | prescale | clockLow | clockHigh
  deriving DecidableEq, Repr

/-- A register-bus request that SEQ emits: a read or a write of one controller register (R14, R104). -/
inductive Request where
  | read (r : CtrlReg)
  | write (r : CtrlReg) (v : Word)
  deriving DecidableEq, Repr

/-- The instructions, in the order of spec/opcode_table.json. -/
inductive Instr where
  /-- SRST (R153). -/
  | srst
  /-- RD.IRQRAW (R105, R181). -/
  | rdIrqraw
  /-- CLR.XRDY (R190). -/
  | clrXrdy
  /-- RD.SYSS (R154, R181). -/
  | rdSyss
  /-- WR.BUF (R155). -/
  | wrBuf
  /-- WR.CNT with N in DATA[15:0] (R157). -/
  | wrCnt (n : BitVec 16)
  /-- WR.DATA with the byte in DATA[7:0] (R188). -/
  | wrData (b : Byte)
  /-- WR.CON with CON_ENABLE in DATA[31:2], STOP and START both 1 (R159). -/
  | wrCon (en : BitVec 30)
  /-- WR.SA with the slave address in DATA[6:0] (R156). -/
  | wrSa (a : BitVec 7)
  /-- WR.PSC (R142). -/
  | wrPsc (v : Word)
  /-- WR.SCLL (R143). -/
  | wrScll (v : Word)
  /-- WR.SCLH (R144). -/
  | wrSclh (v : Word)
  /-- REGWR, one table entry (R205). -/
  | regwr (reg val : Byte)
  /-- CFGBUS (R140). -/
  | cfgbus (psc scll sclh : Word)
  /-- XFER with the slave address, the byte count and the payload HOST gives (R150). -/
  | xfer (sa n : Nat) (payload : List Byte)
  /-- RUNTABLE with the slave address, the table length and the table HOST gives (R200). -/
  | runtable (sa tlen : Nat) (table : List CommandEntry)
  /-- READ of the register at an offset from I2C_BASE (R131). -/
  | read (off : Byte)
  /-- WRITE to the register at an offset from I2C_BASE (R132). -/
  | write (off : Byte) (v : Word)
  /-- MODIFY of the register at an offset from I2C_BASE (R133). -/
  | modify (off : Byte) (mask value : Word)
  deriving DecidableEq, Repr

/-- The operand record of a host command (R103). A command uses the fields its row names and leaves the others at
zero; SA, N and TLEN are natural numbers, so that an operand outside its domain is refused and never wrapped
(R118). DESIGN CHOICE, safe: log 15. -/
structure HcOperands where
  psc : Word := 0
  scll : Word := 0
  sclh : Word := 0
  sa : Nat := 0
  n : Nat := 0
  payload : List Byte := []
  tlen : Nat := 0
  table : List CeWord := []
  deriving DecidableEq, Repr

/-- An instruction as it is encoded: each of the three spaces has one fixed form and stands apart, so a decoder
never has to tell a length (R100). MODIFY is a pair of RB requests to one offset, the second carrying `value` in
DATA, with its `mask` operand beside them (R106, R133). DESIGN CHOICE, safe: log 14. -/
inductive Encoded where
  /-- Format RB (R101). -/
  | rb (w : RbWord)
  /-- Format RB pair (R106, R133). -/
  | pair (rd wr : RbWord) (mask : Word)
  /-- Format CE (R102). -/
  | ce (w : CeWord)
  /-- Format HC (R103). -/
  | hc (op : BitVec 2) (operands : HcOperands)
  deriving DecidableEq, Repr

/-- Why an encoding names no instruction. -/
inductive DecodeError where
  /-- HC code 00: no operation requested (R103). -/
  | noOperation
  /-- A read request whose DATA is not zero (R101: "all zero in a read request"). -/
  | readWithData
  /-- A pair that is not a read and then a write of the same offset (R133). -/
  | notAModifyPair
  deriving DecidableEq, Repr

end Sys2Proof
end

