-- ==== Sys2Proof/Decode.lean ====
section
/-! DEFINITION. Decoding and encoding, from the tables of R101 to R104 and R106: `decode` is total and refuses by
name, `encode` writes the words of an instruction, `Instr.row` is the instruction's match and mask of
spec/opcode_table.json. -/

namespace Sys2Proof

/-! ## Offsets (R40) -/

/-- The eleven registers, in offset order (R40). -/
def CtrlReg.all : List CtrlReg :=
  [.softReset, .irqStatusRaw, .resetStatus, .fifoBuffer, .byteCount, .data,
   .control, .slaveAddr, .prescale, .clockLow, .clockHigh]

/-- The offset of a register from I2C_BASE (R40). -/
def CtrlReg.offset : CtrlReg → Byte
  | .softReset => 0x10
  | .irqStatusRaw => 0x24
  | .resetStatus => 0x90
  | .fifoBuffer => 0x94
  | .byteCount => 0x98
  | .data => 0x9C
  | .control => 0xA4
  | .slaveAddr => 0xAC
  | .prescale => 0xB0
  | .clockLow => 0xB4
  | .clockHigh => 0xB8

/-- The register at an offset; no other offset has one (R52, R134). -/
def CtrlReg.ofOffset? (off : Byte) : Option CtrlReg :=
  CtrlReg.all.find? fun r => r.offset == off

/-! ## Packing (R101, R102) -/

/-- A request as one number: `{W, OFF, DATA}`, W in bit 40, OFF in bits 39:32, DATA in bits 31:0 (R101). -/
def rbPack (w : Bool) (off : Byte) (data : Word) : RbWord :=
  ((BitVec.ofBool w).setWidth 41 <<< 40) ||| (off.setWidth 41 <<< 32) ||| data.setWidth 41

/-- W, bit 40 (R101). -/
def RbWord.isWrite (w : RbWord) : Bool := w.getLsbD 40

/-- OFF, bits 39:32 (R101). -/
def RbWord.off (w : RbWord) : Byte := w.extractLsb' 32 8

/-- DATA, bits 31:0 (R101). -/
def RbWord.dataField (w : RbWord) : Word := w.extractLsb' 0 32

/-- The word of a request that SEQ emits: a read carries DATA zero (R101, R104). -/
def Request.word : Request → RbWord
  | .read r => rbPack false r.offset 0
  | .write r v => rbPack true r.offset v

/-- An entry as one number: `{REG, VAL}`, REG in bits 15:8, VAL in bits 7:0 (R102). -/
def cePack (reg val : Byte) : CeWord := (reg.setWidth 16 <<< 8) ||| val.setWidth 16

/-- An entry's word (R102). -/
def CommandEntry.word (e : CommandEntry) : CeWord := cePack e.reg e.val

/-- REG is bits 15:8 and VAL bits 7:0 of an entry (R102). -/
def CommandEntry.ofWord (w : CeWord) : CommandEntry :=
  { reg := w.extractLsb' 8 8, val := w.extractLsb' 0 8 }

/-! ## Decoding -/

/-- A read request, by its offset: the row with the most mask bits names it (R104, R106). -/
def decodeRead (off : Byte) : Instr :=
  if off = 0x24 then .rdIrqraw
  else if off = 0x90 then .rdSyss
  else .read off

/-- A write request, by its offset and the fixed bits of its data: the row with the most mask bits names it, and
WRITE names what is none of the twelve (R104, R106). -/
def decodeWrite (off : Byte) (data : Word) : Instr :=
  if off = 0x10 ∧ data = 0x2 then .srst
  else if off = 0x24 ∧ data = 0x10 then .clrXrdy
  else if off = 0x94 ∧ data = 0x41 then .wrBuf
  else if off = 0x98 ∧ data.extractLsb' 16 16 = 0 then .wrCnt (data.extractLsb' 0 16)
  else if off = 0x9C ∧ data.extractLsb' 8 24 = 0 then .wrData (data.extractLsb' 0 8)
  else if off = 0xA4 ∧ data.extractLsb' 0 2 = 3 then .wrCon (data.extractLsb' 2 30)
  else if off = 0xAC ∧ data.extractLsb' 7 25 = 0 then .wrSa (data.extractLsb' 0 7)
  else if off = 0xB0 then .wrPsc data
  else if off = 0xB4 then .wrScll data
  else if off = 0xB8 then .wrSclh data
  else .write off data

/-- A register-bus request (R101). -/
def decodeRb (w : RbWord) : Except DecodeError Instr :=
  if w.isWrite then .ok (decodeWrite w.off w.dataField)
  else if w.dataField = 0 then .ok (decodeRead w.off)
  else .error .readWithData

/-- A pair of requests: a read with DATA zero and a write, to one offset (R133). -/
def decodePair (rd wr : RbWord) (mask : Word) : Except DecodeError Instr :=
  if rd.isWrite = false ∧ rd.dataField = 0 ∧ wr.isWrite = true ∧ rd.off = wr.off then
    .ok (.modify rd.off mask wr.dataField)
  else .error .notAModifyPair

/-- A host command, by its two-bit code (R103). -/
def decodeHc (op : BitVec 2) (r : HcOperands) : Except DecodeError Instr :=
  if op = 1 then .ok (.cfgbus r.psc r.scll r.sclh)
  else if op = 2 then .ok (.xfer r.sa r.n r.payload)
  else if op = 3 then .ok (.runtable r.sa r.tlen (r.table.map CommandEntry.ofWord))
  else .error .noOperation

/-- The instruction an encoding names, in each of the spaces of R100; all 65536 entry words are legal (R117). -/
def decode : Encoded → Except DecodeError Instr
  | .rb w => decodeRb w
  | .pair rd wr mask => decodePair rd wr mask
  | .ce w => .ok (.regwr (CommandEntry.ofWord w).reg (CommandEntry.ofWord w).val)
  | .hc op r => decodeHc op r

/-! ## Encoding -/

/-- The words of an instruction (R101 to R104, R107 to R112). -/
def encode : Instr → Encoded
  | .srst => .rb (rbPack true 0x10 0x2)
  | .rdIrqraw => .rb (rbPack false 0x24 0)
  | .clrXrdy => .rb (rbPack true 0x24 0x10)
  | .rdSyss => .rb (rbPack false 0x90 0)
  | .wrBuf => .rb (rbPack true 0x94 0x41)
  | .wrCnt n => .rb (rbPack true 0x98 (n.setWidth 32))
  | .wrData b => .rb (rbPack true 0x9C (b.setWidth 32))
  | .wrCon en => .rb (rbPack true 0xA4 ((en.setWidth 32 <<< 2) ||| 3))
  | .wrSa a => .rb (rbPack true 0xAC (a.setWidth 32))
  | .wrPsc v => .rb (rbPack true 0xB0 v)
  | .wrScll v => .rb (rbPack true 0xB4 v)
  | .wrSclh v => .rb (rbPack true 0xB8 v)
  | .regwr reg val => .ce (cePack reg val)
  | .cfgbus psc scll sclh => .hc 1 { psc := psc, scll := scll, sclh := sclh }
  | .xfer sa n payload => .hc 2 { sa := sa, n := n, payload := payload }
  | .runtable sa tlen table => .hc 3 { sa := sa, tlen := tlen, table := table.map CommandEntry.word }
  | .read off => .rb (rbPack false off 0)
  | .write off v => .rb (rbPack true off v)
  | .modify off mask value => .pair (rbPack false off 0) (rbPack true off value) mask

/-! ## The opcode table's rows -/

/-- One row of the opcode table: the bits under `mask` read `pattern`. -/
structure OpcodeRow where
  pattern : Nat
  mask : Nat
  deriving DecidableEq, Repr

/-- The row of an instruction, copied from spec/opcode_table.json (R104, R106). -/
def Instr.row : Instr → OpcodeRow
  | .srst => ⟨0x11000000002, 0x1FFFFFFFFFF⟩
  | .rdIrqraw => ⟨0x02400000000, 0x1FFFFFFFFFF⟩
  | .clrXrdy => ⟨0x12400000010, 0x1FFFFFFFFFF⟩
  | .rdSyss => ⟨0x09000000000, 0x1FFFFFFFFFF⟩
  | .wrBuf => ⟨0x19400000041, 0x1FFFFFFFFFF⟩
  | .wrCnt _ => ⟨0x19800000000, 0x1FFFFFF0000⟩
  | .wrData _ => ⟨0x19C00000000, 0x1FFFFFFFF00⟩
  | .wrCon _ => ⟨0x1A400000003, 0x1FF00000003⟩
  | .wrSa _ => ⟨0x1AC00000000, 0x1FFFFFFFF80⟩
  | .wrPsc _ => ⟨0x1B000000000, 0x1FF00000000⟩
  | .wrScll _ => ⟨0x1B400000000, 0x1FF00000000⟩
  | .wrSclh _ => ⟨0x1B800000000, 0x1FF00000000⟩
  | .regwr _ _ => ⟨0x0000, 0x0000⟩
  | .cfgbus _ _ _ => ⟨0x1, 0x3⟩
  | .xfer _ _ _ => ⟨0x2, 0x3⟩
  | .runtable _ _ _ => ⟨0x3, 0x3⟩
  | .read _ => ⟨0x00000000000, 0x100FFFFFFFF⟩
  | .write _ _ => ⟨0x10000000000, 0x10000000000⟩
  | .modify _ _ _ => ⟨0x00000000000, 0x100FFFFFFFF⟩

/-- The number the opcode table matches for an encoding: the request, the entry, the code; for a pair its first
request. -/
def Encoded.key : Encoded → Nat
  | .rb w => w.toNat
  | .pair rd _ _ => rd.toNat
  | .ce w => w.toNat
  | .hc op _ => op.toNat

/-- The instruction the decoder reads from a word of the opcode table with `nbits` bits: the three spaces have three
widths (2, 16 and 41 bits, so 8, 16 and 48 in whole bytes), which tell them apart; more bits are a pair of
requests, one after the other; operands the table gives no bits are zero. Log 16. -/
def Encoded.ofTableWord (nbits w : Nat) : Option Encoded :=
  if nbits ≤ 8 then (if w < 2 ^ 2 then some (.hc (BitVec.ofNat 2 w) {}) else none)
  else if nbits ≤ 16 then (if w < 2 ^ 16 then some (.ce (BitVec.ofNat 16 w)) else none)
  else if nbits ≤ 48 then (if w < 2 ^ 41 then some (.rb (BitVec.ofNat 41 w)) else none)
  else if w < 2 ^ 82 then some (.pair (BitVec.ofNat 41 w) (BitVec.ofNat 41 (w >>> 41)) 0) else none

/-- The decoder's instruction for a word of the opcode table; nothing where the decoder refuses. -/
def decodeTableWord (nbits w : Nat) : Option Instr :=
  (Encoded.ofTableWord nbits w).bind fun e => (decode e).toOption

end Sys2Proof
end

