-- ==== Sys2Proof/Machine/State.lean ====
section
/-! DEFINITION. The state of I2CMC as plain data: the sequencer registers (R20), the controller register file (R40)
and its hidden state (R54 to R57), the observation (R11), the parameters (R13), and the inputs of the environment;
the reasons a step can stop; and the state after power-on reset (R59). -/

namespace Sys2Proof.Machine

/-- The host operation in progress, `x[OP]`; `none` means not busy (R20). -/
inductive HostOp where
  | none | cfgbus | xfer | runtable
  deriving DecidableEq, Repr

/-- The four exceptions (R230, R231). -/
inductive TimeoutKind where
  | reset | busBusy | transmitReady | transferComplete
  deriving DecidableEq, Repr

/-- The result of the last host operation, `x[RES]` (R28). -/
inductive OpResult where
  | none | ok | timeout (kind : TimeoutKind)
  deriving DecidableEq, Repr

/-- The micro-pc: fourteen micro-steps (R30). -/
inductive MicroPc where
  | u0 | u1 | u2 | u3 | u4 | u5 | u6 | u7 | u8 | u9 | u10 | u11 | u12 | u13
  deriving DecidableEq, Repr

/-- The source's eight state names (R31). -/
inductive TransactionState where
  | idle | resetting | configuringAddressAndCount | awaitingBusFree | armedStartStop
  | awaitingByteReady | byteSent | awaitingBusIdleComplete
  deriving DecidableEq, Repr

/-- BusConfiguration, `x[CFG]` (R27). -/
structure BusConfiguration where
  psc : Word
  scll : Word
  sclh : Word
  deriving DecidableEq, Repr

/-- One event of the trace: a read and its answer, a write, a settling delay; offsets are relative to I2C_BASE
(R14, R18). -/
inductive Event where
  | read (off : Byte) (answer : Word)
  | write (off : Byte) (value : Word)
  | settle
  deriving DecidableEq, Repr

/-- One entry of the frame list: a completed frame (R75), or the marker of a transaction that timed out after the
arm write (R169). -/
inductive BusFrame where
  | frame (sa : BitVec 7) (bytes : List Byte)
  | unknown (sa : BitVec 7)
  deriving DecidableEq, Repr

/-- The second request of a MODIFY whose first has been issued: the register, and the word to be written (R133). -/
structure ModifyWrite where
  reg : CtrlReg
  value : Word
  deriving DecidableEq, Repr

/-- The bus controller: the eleven registers of R40 and the hidden state of R54 to R56. A register that SEQ only
writes holds what SEQ's writes left in it (R53); a status register holds what the last read of it answered, less
what SEQ has cleared since. DEDUCED, unsafe: log 3. -/
structure Controller where
  /-- SOFT-RESET, 0x10 (R41). -/
  softReset : Word
  /-- IRQ-STATUS-RAW, 0x24: BB bit 12, BF bit 8, XRDY bit 4 (R42). -/
  irqStatusRaw : Word
  /-- RESET-STATUS, 0x90: RDONE bit 0 (R43). -/
  resetStatus : Word
  /-- FIFO/BUFFER, 0x94 (R44). -/
  fifoBuffer : Word
  /-- BYTE-COUNT, 0x98 (R45). -/
  byteCount : Word
  /-- DATA, 0x9C (R46). -/
  data : Word
  /-- CONTROL, 0xA4 (R47). -/
  control : Word
  /-- SLAVE-ADDR, 0xAC (R48). -/
  slaveAddr : Word
  /-- PRESCALE, 0xB0 (R49). -/
  prescale : Word
  /-- CLOCK-LOW, 0xB4 (R50). -/
  clockLow : Word
  /-- CLOCK-HIGH, 0xB8 (R51). -/
  clockHigh : Word
  /-- The internal byte counter, loaded by BYTE-COUNT, one less for each DATA write (R54). -/
  byteCounter : BitVec 16
  /-- The bytes handed to the transmit buffer since it was last cleared (R46, R55). -/
  txBytes : List Byte
  /-- The fill threshold of the transmit buffer (R44, R55, R83). Log 29. -/
  threshold : Nat
  /-- The data register is empty, as SEQ knows it: not since a byte was handed over (R83), again once transmit-ready was
  seen for it (R36, R55). Log 28. -/
  dataEmpty : Bool
  /-- A START…STOP frame was requested and has not been seen complete (R56, R83). Log 11. -/
  framing : Bool
  deriving DecidableEq, Repr

/-- The state of the machine. -/
structure State where
  /-- `x[OP]`, the host operation in progress (R20). -/
  op : HostOp
  /-- `x[SA]`, the slave address (R21). -/
  sa : BitVec 7
  /-- `x[CNT]`, the expected byte count (R22). -/
  cnt : BitVec 16
  /-- `x[PAY]`, the payload, byte 0 first (R24). -/
  pay : List Byte
  /-- `x[BI]`, the index of the next payload byte (R25). -/
  bi : BitVec 16
  /-- `x[TBL]`, the command table (R26). -/
  tbl : List CommandEntry
  /-- `x[TLEN]`, its length (R26). -/
  tlen : Nat
  /-- `x[CI]`, the index of the current entry (R26). -/
  ci : Nat
  /-- `x[CFG]`, the last bus configuration (R27). -/
  cfg : BusConfiguration
  /-- `x[CFGD]`, whether a CFGBUS has completed since power-on (R20). -/
  cfgd : Bool
  /-- `x[CS]`, the CFGBUS writes already issued (R141). -/
  cs : BitVec 2
  /-- `x[PK]`, the failed reads of the current poll (R33). -/
  pk : Nat
  /-- `x[RES]`, the result of the last host operation (R28). -/
  res : OpResult
  /-- `x[FIDX]`, the index of the entry whose transaction failed (R29). -/
  fidx : Nat
  /-- The micro-pc (R30). -/
  pc : MicroPc
  /-- The bus controller (R40, R54 to R57). -/
  ctrl : Controller
  /-- The trace of requests and settling delays, oldest first; written and never read (R11, R34). -/
  trace : List Event
  /-- The frame list, oldest first; written and never read (R11, R34). -/
  frames : List BusFrame
  /-- The parameters, which no step changes (R13, R74). Log 1. -/
  par : Params
  /-- The write request that a MODIFY still has to issue; `none` when no MODIFY is half done (R80, R133). Log 14. -/
  modifying : Option ModifyWrite
  /-- The model's own: what HOST presents, in order, taken one at a time when idle. Log 4. -/
  hostIn : List Encoded
  /-- The model's own: the answers the environment gives to the next reads (R86). Log 2. -/
  answers : List Word
  /-- The model's own: the index of the next free value, one more after each request and after CTRL's turn within a
  MODIFY. Log 2. -/
  reqs : Nat
  deriving DecidableEq, Repr

/-- Why the machine stops with a fault. The spec has none: its four timeouts are next states (R230, R236). -/
inductive Fault where
  /-- Raised by `step` when an operation is in progress and its registers stand at no position of R32 (for example
  `x[OP]` = XFER at u0, or a byte index outside the payload). Safe: no run from reset reaches such a state
  (Obligations.RunningMachineAlwaysSteps), and the machine stops there where the spec says nothing. Log 18. -/
  | noControlPosition
  deriving DecidableEq, Repr

/-- Why an input is given no meaning (R17: "refuse"). Each is safe: the model stops. -/
inductive Refusal where
  /-- Raised by `exec` for an instruction without a meaning yet; there is none. Safe. -/
  | notModelled (mnemonic : String)
  /-- CFGBUS, XFER or RUNTABLE while `x[OP]` is not NONE (R118, R151, R202, R267). Safe. -/
  | busy
  /-- XFER or RUNTABLE while `x[CFGD]` = 0 (R148, R151, R202). Safe. -/
  | notConfigured
  /-- XFER or RUNTABLE with a slave address above 0x7F (R118, R151, R202). Safe. -/
  | address
  /-- XFER with N outside 1 to 65535, or with a payload that is not N bytes (R118, R151). Safe. -/
  | length
  /-- RUNTABLE whose table is not TLEN entries (R103). DEDUCED, safe: log 15. -/
  | tableLength
  /-- READ, WRITE or MODIFY of an offset that is none of the eleven (R52, R115, R134). Safe. -/
  | unmappedOffset
  /-- A register-bus request presented during a host operation that is not the one SEQ emits at that position: a
  competing access, or a request out of order (R115, R268, R273, U11). Safe. -/
  | competingAccess
  /-- A table entry presented where the table loop takes none (R203, R205). Safe. -/
  | notAtTableLoop
  /-- HOST presents words that name no instruction (R101, R133). Safe. -/
  | undecodable (reason : DecodeError)
  deriving DecidableEq, Repr

/-- The controller at power-on: the spec states no value (R60), the model names zero. DESIGN CHOICE, unsafe: log 6. -/
def Controller.powerOn : Controller :=
  { softReset := 0, irqStatusRaw := 0, resetStatus := 0, fifoBuffer := 0, byteCount := 0, data := 0
    control := 0, slaveAddr := 0, prescale := 0, clockLow := 0, clockHigh := 0
    byteCounter := 0, txBytes := [], threshold := 0, dataEmpty := false, framing := false }

/-- The machine right after power-on reset. `op`, `pc`, `res`, `cfgd`, `pk` and `cs` are the spec's (R59, R261);
every other register holds a value the model names. DESIGN CHOICE, unsafe: log 5, log 6. -/
def State.reset : State :=
  { op := .none, sa := 0, cnt := 0, pay := [], bi := 0, tbl := [], tlen := 0, ci := 0
    cfg := { psc := 0, scll := 0, sclh := 0 }
    cfgd := false, cs := 0, pk := 0, res := .none, fidx := 0, pc := .u0
    ctrl := Controller.powerOn, trace := [], frames := [], par := Config.params
    modifying := none, hostIn := [], answers := [], reqs := 0 }

end Sys2Proof.Machine
end

