-- ==== Sys2Proof/Machine/Operands.lean ====
section
/-! DEFINITION. How each written value is assembled (R107 to R112), the constants of the register map (R13), the
codes of the enumerations (R30, R103, R231), the names of the micro-steps (R31), the address of an access (R15), and
the check of a trace (R115). -/

namespace Sys2Proof.Machine

/-! ## Values written (R107 to R112, R116) -/

/-- A narrower value zero-extended to a word of the register bus (R76, R107, R108, R109). -/
def zext32 {n : Nat} (v : BitVec n) : Word := v.setWidth 32

/-- SRST_CMD, the value that triggers the soft reset (R13, R41). -/
def srstCmd : Word := 0x00000002

/-- FIFO_CFG, the value that clears the FIFO and sets its threshold (R13, R44). -/
def fifoCfg : Word := 0x00000041

/-- XRDY_CLR, 1 shifted left by 4: only the transmit-ready bit (R111). -/
def xrdyClr : Word := 0x00000010

/-- CON_ENABLE from its bits 31:2: bits 1:0 are zero (R13, R110). -/
def enableWord (conEnable : BitVec 30) : Word := conEnable.setWidth 32 <<< 2

/-- A CONTROL value with STOP and START both 1: CON_ENABLE OR 0x3 (R110). -/
def armWord (conEnable : BitVec 30) : Word := enableWord conEnable ||| 0x00000003

/-- CON_ENABLE of a configuration (R13). -/
def conEnableWord (p : Params) : Word := enableWord p.conEnable

/-- ARM_VAL (R13, R110). -/
def armVal (p : Params) : Word := armWord p.conEnable

/-- The formula of MODIFY: the bits selected by `mask` come from `value`, the others from `old` (R133). -/
def modifyWord (old mask value : Word) : Word := (old &&& ~~~mask) ||| (value &&& mask)

/-- The payload of a table entry's transaction: the entry's two bytes, the register address first (R24, R114). -/
def entryPayload (reg val : Byte) : List Byte := [reg, val]

/-! ## Addresses (R15, R79) -/

/-- The byte address of a register access: I2C_BASE + offset, over the natural numbers (R15, R171). -/
def busAddr (p : Params) (off : Byte) : Nat := p.i2cBase + off.toNat

/-- The least number of no-op cycles an event takes: SETTLE_CYCLES for a settling delay; nothing else has a bound
(R184, R270, R271). -/
def Event.minCycles (p : Params) : Event → Nat
  | .settle => p.settleCycles
  | .read _ _ => 0
  | .write _ _ => 0

/-- The byte address an event's request goes to; a settling delay issues no request (R14, R184). -/
def Event.addr? (p : Params) : Event → Option Nat
  | .read off _ => some (busAddr p off)
  | .write off _ => some (busAddr p off)
  | .settle => none

/-! ## The check of a trace (R115) -/

/-- The event is a request that is none of the twelve of R104, which a check of SEQ's trace takes as a violation: a read
of another offset than 0x24 and 0x90, or a write whose offset and data meet no row (R115). Log 30. -/
def Event.isViolation : Event → Bool
  | .read off _ => decide (off ≠ 0x24 ∧ off ≠ 0x90)
  | .write off v =>
    if off = 0x10 then decide (v ≠ 0x2)
    else if off = 0x24 then decide (v ≠ 0x10)
    else if off = 0x94 then decide (v ≠ 0x41)
    else if off = 0x98 then decide (2 ^ 16 ≤ v.toNat)
    else if off = 0x9C then decide (2 ^ 8 ≤ v.toNat)
    else if off = 0xA4 then decide (v &&& 0x3 ≠ 0x3)
    else if off = 0xAC then decide (2 ^ 7 ≤ v.toNat)
    else decide (off ≠ 0xB0 ∧ off ≠ 0xB4 ∧ off ≠ 0xB8)
  | .settle => false

/-- Every request of the trace is one of the twelve (R115). -/
def State.traceConforms (s : State) : Bool := s.trace.all fun e => !e.isViolation

/-! ## Codes (R30, R103, R231), for reference only -/

def HostOp.code : HostOp → BitVec 2
  | .none => 0
  | .cfgbus => 1
  | .xfer => 2
  | .runtable => 3

def TimeoutKind.code : TimeoutKind → Nat
  | .reset => 1
  | .busBusy => 2
  | .transmitReady => 3
  | .transferComplete => 4

def MicroPc.code : MicroPc → Nat
  | .u0 => 0
  | .u1 => 1
  | .u2 => 2
  | .u3 => 3
  | .u4 => 4
  | .u5 => 5
  | .u6 => 6
  | .u7 => 7
  | .u8 => 8
  | .u9 => 9
  | .u10 => 10
  | .u11 => 11
  | .u12 => 12
  | .u13 => 13

/-- The source's name of the state a micro-step belongs to (R30, R31). -/
def MicroPc.transactionState : MicroPc → TransactionState
  | .u0 => .idle
  | .u1 | .u2 => .resetting
  | .u3 | .u4 | .u5 => .configuringAddressAndCount
  | .u6 => .awaitingBusFree
  | .u7 | .u8 => .armedStartStop
  | .u9 => .awaitingByteReady
  | .u10 | .u11 | .u12 => .byteSent
  | .u13 => .awaitingBusIdleComplete

end Sys2Proof.Machine
end

