-- ==== Sys2Proof/Machine/Flags.lean ====
section
/-! DEFINITION. The four status flags SEQ polls (R35 to R38), the four polls (R113, R231), the bound of a poll (R182)
and the write-one-to-clear rule of IRQ-STATUS-RAW (R82). -/

namespace Sys2Proof.Machine

/-- BB, bus-busy: IRQ-STATUS-RAW bit 12 (R35). -/
def Controller.busBusy (c : Controller) : Bool := c.irqStatusRaw.getLsbD 12

/-- XRDY, tx-ready: IRQ-STATUS-RAW bit 4 (R36). -/
def Controller.txReady (c : Controller) : Bool := c.irqStatusRaw.getLsbD 4

/-- BF, transfer-complete: IRQ-STATUS-RAW bit 8 (R37). -/
def Controller.transferComplete (c : Controller) : Bool := c.irqStatusRaw.getLsbD 8

/-- RDONE, reset complete: RESET-STATUS bit 0 (R38). -/
def Controller.resetDone (c : Controller) : Bool := c.resetStatus.getLsbD 0

/-- The three flags of IRQ-STATUS-RAW: BB bit 12, BF bit 8, XRDY bit 4 (R42). -/
def irqFlags : Word := 0x00001110

/-- The operands of a poll: the register read, the bit tested, the value wanted, the timeout raised (R180). -/
structure PollSpec where
  reg : CtrlReg
  bit : Nat
  want : Bool
  kind : TimeoutKind
  deriving DecidableEq, Repr

/-- POLL.RDONE, at u2 (R154). -/
def pollRdone : PollSpec := { reg := .resetStatus, bit := 0, want := true, kind := .reset }

/-- POLL.BB, at u6 (R158). -/
def pollBb : PollSpec := { reg := .irqStatusRaw, bit := 12, want := false, kind := .busBusy }

/-- POLL.XRDY, at u9 (R187). -/
def pollXrdy : PollSpec := { reg := .irqStatusRaw, bit := 4, want := true, kind := .transmitReady }

/-- POLL.BF, at u13 (R161). -/
def pollBf : PollSpec := { reg := .irqStatusRaw, bit := 8, want := true, kind := .transferComplete }

/-- The poll of a micro-step; the other micro-steps poll nothing (R105, R231). -/
def MicroPc.poll? : MicroPc → Option PollSpec
  | .u2 => some pollRdone
  | .u6 => some pollBb
  | .u9 => some pollXrdy
  | .u13 => some pollBf
  | .u0 | .u1 | .u3 | .u4 | .u5 | .u7 | .u8 | .u10 | .u11 | .u12 => none

/-- The test of a poll: bit `bit` of the answer equals `want`; every other bit is ignored (R180, R181). -/
def PollSpec.passes (p : PollSpec) (answer : Word) : Bool := answer.getLsbD p.bit == p.want

/-- The poll has used up its budget: `x[PK]` has reached POLL_BOUND; never with POLL_BOUND = none (R180, R182). -/
def boundReached (p : Params) (pk : Nat) : Bool :=
  match p.pollBound with
  | none => false
  | some b => decide (b.val ≤ pk)

/-- IRQ-STATUS-RAW after a write: a written 0 leaves its bit, a 1 in the place of a flag clears that flag, the written
value is not stored (R82, R278, R190). For XRDY this is R82; that it holds of BB and BF too is R278's ("clears every set
flag"), which R42 leaves out. DEDUCED, unsafe: log 9. A 1 in a bit the source does not define takes the bit from `free`.
DESIGN CHOICE, safe: log 9. -/
def clearByWrite (old written free : Word) : Word :=
  if written &&& ~~~irqFlags = 0 then old &&& ~~~written
  else (old &&& ~~~written) ||| (free &&& (written &&& ~~~irqFlags))

end Sys2Proof.Machine
end

