-- ==== Sys2Proof/Machine/Ops.lean ====
section
/-! DEFINITION. The shared operations: what a write does in the controller (R41 to R57, R83), one read and one write
request (R14, R15), the settling delay (R184), the poll (R180), taking a timeout (R236), and the forms in which an
instruction issues its request. Every meaning is one call of these. -/

namespace Sys2Proof.Machine

/-! ## The controller's side of a write -/

/-- A controller of which nothing is known: every register and all hidden state free (R61, R115). -/
def Controller.unknown (k : Nat) : Controller :=
  { softReset := Config.freeRegister k (CtrlReg.offset .softReset)
    irqStatusRaw := Config.freeRegister k (CtrlReg.offset .irqStatusRaw)
    resetStatus := Config.freeRegister k (CtrlReg.offset .resetStatus)
    fifoBuffer := Config.freeRegister k (CtrlReg.offset .fifoBuffer)
    byteCount := Config.freeRegister k (CtrlReg.offset .byteCount)
    data := Config.freeRegister k (CtrlReg.offset .data)
    control := Config.freeRegister k (CtrlReg.offset .control)
    slaveAddr := Config.freeRegister k (CtrlReg.offset .slaveAddr)
    prescale := Config.freeRegister k (CtrlReg.offset .prescale)
    clockLow := Config.freeRegister k (CtrlReg.offset .clockLow)
    clockHigh := Config.freeRegister k (CtrlReg.offset .clockHigh)
    byteCounter := Config.freeCounter k
    txBytes := Config.freeBuffer k
    threshold := Config.freeThreshold k
    dataEmpty := Config.freeDataEmpty k
    framing := Config.freeFraming k }

/-- The soft reset: RESET-STATUS reads 0 until the reset completes (R38), the bit-rate registers survive (R57, D22),
and everything else is free (R61, U9). Log 7. -/
def Controller.softResetEffect (k : Nat) (c : Controller) : Controller :=
  { Controller.unknown k with
    resetStatus := 0
    prescale := c.prescale
    clockLow := c.clockLow
    clockHigh := c.clockHigh }

/-- A write to SOFT-RESET: 0x2 triggers the reset (R41); what another value does is not in the source, so nothing is
known afterwards (R41, R115). Log 8. -/
def Controller.writeSoftReset (k : Nat) (v : Word) (c : Controller) : Controller :=
  if v = srstCmd then c.softResetEffect k else Controller.unknown k

/-- A write to FIFO/BUFFER: 0x41 clears the FIFO and sets its threshold (R44, R83; the threshold's value: log 29); what
another value does to either is not in the source, so both are free. DESIGN CHOICE: log 8. Whether the clear also changes
the data register's emptiness, the byte counter or the frame is not in the source (R83, R55, N5): the model keeps them.
DESIGN CHOICE, unsafe: log 31. -/
def Controller.writeFifo (k : Nat) (v : Word) (c : Controller) : Controller :=
  { c with
    fifoBuffer := v
    txBytes := if v = fifoCfg then [] else Config.freeBuffer k
    threshold := if v = fifoCfg then Config.fifoThreshold else Config.freeThreshold k }

/-- A write to BYTE-COUNT loads the hidden counter with DATA[15:0] (R45, R54, R83); with a bit above 15 set the
loaded value is not in the source (D11, R116). Log 8. Nothing else changes: log 31. -/
def Controller.writeByteCount (k : Nat) (v : Word) (c : Controller) : Controller :=
  { c with
    byteCount := v
    byteCounter := if v.toNat < 2 ^ 16 then v.setWidth 16 else Config.freeCounter k }

/-- A write of a byte, zero-extended, to DATA hands the byte to the controller, runs the counter down by one, and leaves
the data register not empty (R46, R54, R83); what the counter does at 0 is not in the source (R172): log 10. What a
write with a bit above 7 set does is not in the source either (R83, R115, N15): what is handed over, the counter and
the emptiness are free. DESIGN CHOICE: log 8. Nothing else changes: log 31. With no frame in progress the spec states no
effect (R46 and R83 speak of the byte "for the current frame"): the model does the same whatever `framing` is. DESIGN
CHOICE, unsafe: log 32. -/
def Controller.writeData (k : Nat) (v : Word) (c : Controller) : Controller :=
  if v.toNat < 2 ^ 8 then
    { c with
      data := v
      byteCounter := if c.byteCounter = 0 then Config.freeCounter k else c.byteCounter - 1
      txBytes := c.txBytes ++ [v.setWidth 8]
      dataEmpty := false }
  else
    { c with
      data := v
      byteCounter := Config.freeCounter k
      txBytes := Config.freeBuffer k
      dataEmpty := Config.freeDataEmpty k }

/-- A write to CONTROL: with START and STOP both set the controller frames the whole payload (R47, R56, R83); what it
does otherwise is not in the source. Log 11. Nothing else changes: log 31. -/
def Controller.writeControl (k : Nat) (v : Word) (c : Controller) : Controller :=
  { c with
    control := v
    framing := if v.getLsbD 0 && v.getLsbD 1 then true else Config.freeFraming k }

/-- What a write of `v` does in the controller (R41 to R51, R82, R83). A write to RESET-STATUS, which SEQ never
issues, leaves it free (R115). What else a write does is not in the source (R83): but for a write of SOFT-RESET the model
keeps every other register and all other hidden state. DESIGN CHOICE, unsafe: log 31. `k` indexes the free values. -/
def Controller.write (k : Nat) (r : CtrlReg) (v : Word) (c : Controller) : Controller :=
  match r with
  | .softReset => c.writeSoftReset k v
  | .irqStatusRaw =>
    { c with irqStatusRaw := clearByWrite c.irqStatusRaw v (Config.freeRegister k (CtrlReg.offset .irqStatusRaw)) }
  | .resetStatus => { c with resetStatus := Config.freeRegister k (CtrlReg.offset .resetStatus) }
  | .fifoBuffer => c.writeFifo k v
  | .byteCount => c.writeByteCount k v
  | .data => c.writeData k v
  | .control => c.writeControl k v
  | .slaveAddr => { c with slaveAddr := v }
  | .prescale => { c with prescale := v }
  | .clockLow => { c with clockLow := v }
  | .clockHigh => { c with clockHigh := v }

/-- What is known of the controller once a read has been answered: a status register stands as CTRL has just made it
(R35 to R38, R86); the read itself changes nothing (R84), and what a register that SEQ only writes reads as is not
in the source (R41). Log 3, log 27. -/
def Controller.observe (r : CtrlReg) (answer : Word) (c : Controller) : Controller :=
  match r with
  | .irqStatusRaw => { c with irqStatusRaw := answer }
  | .resetStatus => { c with resetStatus := answer }
  | .softReset | .fifoBuffer | .byteCount | .data | .control | .slaveAddr
  | .prescale | .clockLow | .clockHigh => c

/-- CTRL's turn between the two requests of a MODIFY: it may change the status bits (R53, R80, R133), so both status
registers are free. What it changes in a register that holds what is written is overwritten (R133). Log 14. -/
def Controller.statusTurn (k : Nat) (c : Controller) : Controller :=
  { c with
    irqStatusRaw := Config.freeRegister k (CtrlReg.offset .irqStatusRaw)
    resetStatus := Config.freeRegister k (CtrlReg.offset .resetStatus) }

/-- Transmit-ready has been seen: the data register is empty (R36, R192). Log 28. -/
def Controller.readySeen (c : Controller) : Controller := { c with dataEmpty := true }

/-! ## One request, one delay -/

/-- The answer the environment gives to the next read: any word (R86). Log 2. -/
def State.answer (s : State) : Word :=
  match s.answers with
  | v :: _ => v
  | [] => Config.readAnswer s.reqs

/-- One read request and its answer `s.answer` (R14, R15, R131). -/
def State.regRead (r : CtrlReg) (s : State) : State :=
  { s with
    trace := s.trace ++ [.read r.offset s.answer]
    ctrl := s.ctrl.observe r s.answer
    answers := s.answers.tail
    reqs := s.reqs + 1 }

/-- One write request (R14, R15, R132). -/
def State.regWrite (r : CtrlReg) (v : Word) (s : State) : State :=
  { s with
    trace := s.trace ++ [.write r.offset v]
    ctrl := s.ctrl.write s.reqs r v
    reqs := s.reqs + 1 }

/-- The first step of a MODIFY: one read request; the write of the masked combination is due next (R133). -/
def State.startModify (r : CtrlReg) (mask value : Word) (s : State) : State :=
  { s.regRead r with modifying := some { reg := r, value := modifyWord s.answer mask value } }

/-- The second step of a MODIFY: CTRL may have acted since the read (R80), then one write request (R133). -/
def State.finishModify (m : ModifyWrite) (s : State) : State :=
  { s with modifying := none, ctrl := s.ctrl.statusTurn s.reqs, reqs := s.reqs + 1 : State }.regWrite m.reg m.value

/-- The settling delay: the marker in the trace, no request, nothing else changed (R184). -/
def State.settle (s : State) : State := { s with trace := s.trace ++ [.settle] }

/-! ## Taking a timeout. There is no return instruction: the operation is over and HOST reads the record (R240). -/

/-- The frame list after a timeout: the marker when the arm write had been issued (R169, R236). -/
def State.framesAfterTimeout (s : State) : List BusFrame :=
  if s.pc = .u9 ∨ s.pc = .u13 then s.frames ++ [.unknown s.sa] else s.frames

/-- Entry of `Timeout(kind)` (R236, R237): the index of the failed entry, the frame marker, the result, and the block
idle. -/
def State.raiseTimeout (kind : TimeoutKind) (s : State) : State :=
  { s with
    fidx := if s.op = .runtable then s.ci else 0
    frames := s.framesAfterTimeout
    res := .timeout kind
    pc := .u0
    op := .none }

/-! ## The poll -/

/-- One read of a poll has failed (R180): one more failed read, and the timeout once the bound is reached. -/
def State.pollFailed (kind : TimeoutKind) (s : State) : State :=
  if boundReached s.par (s.pk + 1) then { s with pk := s.pk + 1 }.raiseTimeout kind
  else { s with pk := s.pk + 1 }

/-- One step of a poll: one read, then the pass or the failure (R180, R181). -/
def State.poll (p : PollSpec) (onPass : State → State) (s : State) : State :=
  if p.passes s.answer then onPass (s.regRead p.reg) else (s.regRead p.reg).pollFailed p.kind

/-! ## Completion -/

/-- The table loop's test: with entries left the next one is due, else the table is done (R203, R206, R208). -/
def State.tableLoop (s : State) : State :=
  if s.ci < s.tlen then s else { s with res := .ok, op := .none }

/-- CFGBUS is complete (R145). -/
def State.configDone (s : State) : State := { s with cfgd := true, res := .ok, op := .none }

/-- The transaction is complete: the frame is recorded, and control returns to where the transaction was started
(R161, R206). The frame is over (log 11). -/
def State.transactionDone (s : State) : State :=
  let t : State :=
    { s with frames := s.frames ++ [.frame s.sa s.pay], pc := .u0, ctrl := { s.ctrl with framing := false } }
  match s.op with
  | .xfer => { t with res := .ok, op := .none }
  | .runtable => { t with ci := s.ci + 1 }.tableLoop
  | .none => t
  | .cfgbus => t

/-! ## The request SEQ emits at its control position (R32) -/

/-- The request of a micro-step (R30, R104, R150); u0, u8 and u11 issue none, nor does u10 without a byte. -/
def State.microRequest (s : State) : Option Request :=
  match s.pc with
  | .u0 => none
  | .u1 => some (.write .softReset srstCmd)
  | .u2 => some (.read .resetStatus)
  | .u3 => some (.write .fifoBuffer fifoCfg)
  | .u4 => some (.write .slaveAddr (zext32 s.sa))
  | .u5 => some (.write .byteCount (zext32 s.cnt))
  | .u6 => some (.read .irqStatusRaw)
  | .u7 => some (.write .control (armVal s.par))
  | .u8 => none
  | .u9 => some (.read .irqStatusRaw)
  | .u10 => (s.pay[s.bi.toNat]?).map fun b => .write .data (zext32 b)
  | .u11 => none
  | .u12 => some (.write .irqStatusRaw xrdyClr)
  | .u13 => some (.read .irqStatusRaw)

/-- The request of a CFGBUS step (R140 to R144). -/
def State.configRequest (s : State) : Option Request :=
  if s.cs = 0 then some (.write .prescale s.cfg.psc)
  else if s.cs = 1 then some (.write .clockLow s.cfg.scll)
  else if s.cs = 2 then some (.write .clockHigh s.cfg.sclh)
  else none

/-- The register-bus request SEQ emits next, if its next step is one (R32). -/
def State.request (s : State) : Option Request :=
  match s.op with
  | .none => none
  | .cfgbus => s.configRequest
  | .xfer => s.microRequest
  | .runtable => s.microRequest

/-! ## How an instruction issues its request. Log 12. -/

/-- A primitive of the register interface, used by HOST's side between operations; during one it would be a competing
access (R135, R268, U11). One that is none of SEQ's twelve requests runs too, and the trace shows it as a violation
(R131 to R134, R115). DEDUCED, unsafe: log 30. -/
def State.primitive (f : State → State) (s : State) : Host.Outcome State Fault Refusal :=
  if s.op = .none then .next (f s) else .refused .competingAccess

/-- A write request of the twelve: SEQ's own when it is the request of the control position, and then `advance`;
else the primitive WRITE of the same request. -/
def State.issueWrite (r : CtrlReg) (v : Word) (advance : State → State) (s : State) :
    Host.Outcome State Fault Refusal :=
  if s.request = some (.write r v) then .next (advance (s.regWrite r v))
  else s.primitive fun t => t.regWrite r v

/-- A read request of the twelve: SEQ's own when it is the request of the control position, and then one step of the
poll `onPoll`, which reads; else the primitive READ of the same register. -/
def State.issueRead (r : CtrlReg) (onPoll : State → State) (s : State) : Host.Outcome State Fault Refusal :=
  if s.request = some (.read r) then .next (onPoll s)
  else s.primitive fun t => t.regRead r

end Sys2Proof.Machine
end

