-- ==== Sys2Proof/Machine/BusConfig.lean ====
section
/-! DEFINITION. The bus configuration engine: CFGBUS and its three writes (R140 to R148), and the bit rate that no
step reads (R146). -/

namespace Sys2Proof.Machine

/-- CFGBUS, accepted when idle: the three values are taken as given (R140, R147, R148) and the poll count is cleared
(R62). -/
def execCfgbus (psc scll sclh : Word) (s : State) : Host.Outcome State Fault Refusal :=
  if s.op ≠ .none then .refused .busy
  else
    .next { s with op := .cfgbus, res := .none, cfg := { psc := psc, scll := scll, sclh := sclh }, cs := 0, pk := 0 }

/-- WR.PSC, CFGBUS step 0 (R142). -/
def execWrPsc (v : Word) (s : State) : Host.Outcome State Fault Refusal :=
  s.issueWrite .prescale v fun t => { t with cs := 1 }

/-- WR.SCLL, CFGBUS step 1 (R143). -/
def execWrScll (v : Word) (s : State) : Host.Outcome State Fault Refusal :=
  s.issueWrite .clockLow v fun t => { t with cs := 2 }

/-- WR.SCLH, CFGBUS step 2, and completion (R144, R145). -/
def execWrSclh (v : Word) (s : State) : Host.Outcome State Fault Refusal :=
  s.issueWrite .clockHigh v fun t => { t with cs := 3 }.configDone

/-- The effective module clock, over exact rationals: the divisor is the prescale divisor plus 1, never 0 (R146,
R147). -/
def moduleClock (inputClockHz : Rat) (psc : Word) : Rat := inputClockHz / ((psc.toNat + 1 : Nat) : Rat)

/-- The bit rate the controller runs at, fixed by its three bit-rate registers (R57, R146): an open function of
CLOCK-LOW + CLOCK-HIGH periods of the module clock, which no step reads. Log 24. -/
def Controller.bitRate (c : Controller) : Rat :=
  moduleClock Config.inputClockHz c.prescale / Config.bitPeriodClocks (c.clockLow.toNat + c.clockHigh.toNat)

end Sys2Proof.Machine
end

