-- ==== Sys2Proof/Machine/BytePipeline.lean ====
section
/-! DEFINITION. The byte-ready polling pipeline: the data write, the clear of transmit-ready, and the two settling
delays (R184 to R193); the transmit-ready poll itself is RD.IRQRAW at u9 (Transaction.lean, R187). -/

namespace Sys2Proof.Machine

/-- WR.DATA, u10 (R188). -/
def execWrData (b : Byte) (s : State) : Host.Outcome State Fault Refusal :=
  s.issueWrite .data (zext32 b) fun t => { t with pc := .u11 }

/-- After the clear: the next byte's poll, or the completion poll once the payload is sent (R190, R191). -/
def State.nextByte (s : State) : State :=
  { s with
    bi := s.bi + 1
    pk := 0
    pc := if (s.bi + 1).toNat < s.cnt.toNat then .u9 else .u13 }

/-- CLR.XRDY, u12: a plain write of the one-bit constant (R190). -/
def execClrXrdy (s : State) : Host.Outcome State Fault Refusal :=
  s.issueWrite .irqStatusRaw xrdyClr State.nextByte

/-- SETTLE after arming, u8: the byte loop begins at byte 0 (R160, R163). -/
def State.settleAfterArm (s : State) : State := { s.settle with bi := 0, pk := 0, pc := .u9 }

/-- SETTLE after a data write, u11 (R189). -/
def State.settleAfterData (s : State) : State := { s.settle with pc := .u12 }

end Sys2Proof.Machine
end

