-- ==== Sys2Proof/Machine/RegisterInterface.lean ====
section
/-! DEFINITION. The register interface primitives READ, WRITE and MODIFY (R130 to R135). They check no address at run
time; an offset that is none of the eleven has no meaning and is refused (R52, R134). -/

namespace Sys2Proof.Machine

/-- A primitive on the register at an offset (R134). -/
def State.atOffset (off : Byte) (f : CtrlReg → State → State) (s : State) : Host.Outcome State Fault Refusal :=
  match CtrlReg.ofOffset? off with
  | some r => s.primitive (f r)
  | none => .refused .unmappedOffset

/-- READ: one read request; its result is the answer in the trace (R131). -/
def execRead (off : Byte) (s : State) : Host.Outcome State Fault Refusal :=
  s.atOffset off fun r t => t.regRead r

/-- WRITE: one write request (R132). -/
def execWrite (off : Byte) (v : Word) (s : State) : Host.Outcome State Fault Refusal :=
  s.atOffset off fun r t => t.regWrite r v

/-- MODIFY: a read and then a write of the same register, always both, one request a step (R133, R80): this step issues
the read, and the next step (State.internalStep) the write. Log 14. -/
def execModify (off : Byte) (mask value : Word) (s : State) : Host.Outcome State Fault Refusal :=
  s.atOffset off fun r t => t.startModify r mask value

end Sys2Proof.Machine
end

