-- ==== Sys2Proof/Machine/Sequencer.lean ====
section
/-! DEFINITION. The transaction sequencer: RUNTABLE and the table entry REGWR (R200 to R211). -/

namespace Sys2Proof.Machine

/-- RUNTABLE, with the checks of its acceptance in their order (R202, R103); an empty table is done at once (R208);
the poll count is cleared (R62). -/
def execRuntable (sa tlen : Nat) (table : List CommandEntry) (s : State) : Host.Outcome State Fault Refusal :=
  if s.op ≠ .none then .refused .busy
  else if s.cfgd = false then .refused .notConfigured
  else if 0x7F < sa then .refused .address
  else if table.length ≠ tlen then .refused .tableLength
  else
    .next
      { s with
        op := .runtable, res := .none, sa := BitVec.ofNat 7 sa, tbl := table, tlen := tlen, ci := 0, pk := 0
        pc := .u0 : State }.tableLoop

/-- REGWR: the table loop starts the two-byte transaction of an entry (R203, R205). -/
def execRegwr (reg val : Byte) (s : State) : Host.Outcome State Fault Refusal :=
  if s.op = .runtable ∧ s.pc = .u0 ∧ s.ci < s.tlen then
    .next { s with pay := entryPayload reg val, cnt := 2, pk := 0, pc := .u1 }
  else .refused .notAtTableLoop

end Sys2Proof.Machine
end

