-- ==== Sys2Proof/Machine/Transaction.lean ====
section
/-! DEFINITION. The master controller state machine: XFER and the micro-steps u1 to u8 (R150 to R160), and the three
polls RD.IRQRAW serves (R105), the last of which completes the transaction (R161). -/

namespace Sys2Proof.Machine

/-- XFER, with the checks of its acceptance in their order (R151, R118); the poll count is cleared (R62). -/
def execXfer (sa n : Nat) (payload : List Byte) (s : State) : Host.Outcome State Fault Refusal :=
  if s.op ≠ .none then .refused .busy
  else if s.cfgd = false then .refused .notConfigured
  else if 0x7F < sa then .refused .address
  else if n < 1 ∨ 65535 < n ∨ payload.length ≠ n then .refused .length
  else
    .next
      { s with
        op := .xfer, res := .none, sa := BitVec.ofNat 7 sa, pay := payload, cnt := BitVec.ofNat 16 n, pk := 0
        pc := .u1 }

/-- SRST, u1 (R153); the poll of u2 starts with no failed read (R163). -/
def execSrst (s : State) : Host.Outcome State Fault Refusal :=
  s.issueWrite .softReset srstCmd fun t => { t with pc := .u2, pk := 0 }

/-- RD.SYSS, one read of POLL.RDONE at u2 (R154). -/
def execRdSyss (s : State) : Host.Outcome State Fault Refusal :=
  s.issueRead .resetStatus fun t => t.poll pollRdone fun u => { u with pc := .u3 }

/-- WR.BUF, u3 (R155). -/
def execWrBuf (s : State) : Host.Outcome State Fault Refusal :=
  s.issueWrite .fifoBuffer fifoCfg fun t => { t with pc := .u4 }

/-- WR.SA, u4 (R156). -/
def execWrSa (a : BitVec 7) (s : State) : Host.Outcome State Fault Refusal :=
  s.issueWrite .slaveAddr (zext32 a) fun t => { t with pc := .u5 }

/-- WR.CNT, u5 (R157); the poll of u6 starts with no failed read (R163). -/
def execWrCnt (n : BitVec 16) (s : State) : Host.Outcome State Fault Refusal :=
  s.issueWrite .byteCount (zext32 n) fun t => { t with pc := .u6, pk := 0 }

/-- One read of the poll of the current micro-step: POLL.BB at u6 (R158), POLL.XRDY at u9 (R187), POLL.BF at u13,
whose pass completes the transaction (R161). The other micro-steps do not read IRQ-STATUS-RAW. -/
def State.pollIrq (s : State) : State :=
  match s.pc with
  | .u6 => s.poll pollBb fun t => { t with pc := .u7 }
  | .u9 => s.poll pollXrdy fun t => { t with pc := .u10, ctrl := t.ctrl.readySeen }
  | .u13 => s.poll pollBf State.transactionDone
  | .u0 | .u1 | .u2 | .u3 | .u4 | .u5 | .u7 | .u8 | .u10 | .u11 | .u12 => s.regRead .irqStatusRaw

/-- RD.IRQRAW, one read of the poll that the micro-pc selects (R105, R181). -/
def execRdIrqraw (s : State) : Host.Outcome State Fault Refusal :=
  s.issueRead .irqStatusRaw State.pollIrq

/-- WR.CON, u7: START and STOP in one write (R159). -/
def execWrCon (en : BitVec 30) (s : State) : Host.Outcome State Fault Refusal :=
  s.issueWrite .control (armWord en) fun t => { t with pc := .u8 }

end Sys2Proof.Machine
end

