-- ==== Sys2Proof/Machine/Dispatch.lean ====
section
/-! DEFINITION. The meaning of each instruction, one arm per constructor of Instr. -/

namespace Sys2Proof.Machine

def exec (i : Instr) (s : State) : Host.Outcome State Fault Refusal :=
  match i with
  | .srst => Sys2Proof.Machine.execSrst s
  | .rdIrqraw => Sys2Proof.Machine.execRdIrqraw s
  | .clrXrdy => Sys2Proof.Machine.execClrXrdy s
  | .rdSyss => Sys2Proof.Machine.execRdSyss s
  | .wrBuf => Sys2Proof.Machine.execWrBuf s
  | .wrCnt n => Sys2Proof.Machine.execWrCnt n s
  | .wrData b => Sys2Proof.Machine.execWrData b s
  | .wrCon en => Sys2Proof.Machine.execWrCon en s
  | .wrSa a => Sys2Proof.Machine.execWrSa a s
  | .wrPsc v => Sys2Proof.Machine.execWrPsc v s
  | .wrScll v => Sys2Proof.Machine.execWrScll v s
  | .wrSclh v => Sys2Proof.Machine.execWrSclh v s
  | .regwr reg val => Sys2Proof.Machine.execRegwr reg val s
  | .cfgbus psc scll sclh => Sys2Proof.Machine.execCfgbus psc scll sclh s
  | .xfer sa n payload => Sys2Proof.Machine.execXfer sa n payload s
  | .runtable sa tlen table => Sys2Proof.Machine.execRuntable sa tlen table s
  | .read off => Sys2Proof.Machine.execRead off s
  | .write off v => Sys2Proof.Machine.execWrite off v s
  | .modify off mask value => Sys2Proof.Machine.execModify off mask value s

end Sys2Proof.Machine
end

