-- ==== Sys2Proof/Machine/Fetch.lean ====
section
/-! DEFINITION. Where the next instruction comes from, and the steps that have no encoding. While an operation runs
the control position decides (R32): SEQ's next request, or the next table entry. When idle HOST decides: the next
command it presents. -/

namespace Sys2Proof.Machine

/-- The table entry that is due (R203, R204). -/
def State.currentEntry? (s : State) : Option CommandEntry :=
  if s.ci < s.tlen then s.tbl[s.ci]? else none

/-- The words of the next instruction, if the next step is one (R32, R203; HOST's at idle: log 4). A MODIFY that is half
done is finished first: it is the pair of requests that HOST has presented (R133). -/
def State.fetch (s : State) : Option Encoded :=
  match s.op with
  | .none => if s.modifying = none then s.hostIn.head? else none
  | .cfgbus => s.request.map fun r => .rb r.word
  | .xfer => s.request.map fun r => .rb r.word
  | .runtable =>
    match s.pc with
    | .u0 => s.currentEntry?.map fun e => .ce e.word
    | .u1 | .u2 | .u3 | .u4 | .u5 | .u6 | .u7 | .u8 | .u9 | .u10 | .u11 | .u12 | .u13 =>
      s.request.map fun r => .rb r.word

/-- The state in which the fetched instruction runs: a command HOST presented is taken (log 4); a request or a table
entry leaves nothing behind. -/
def State.consume (s : State) : State :=
  match s.op with
  | .none => { s with hostIn := s.hostIn.tail }
  | .cfgbus => s
  | .xfer => s
  | .runtable => s

/-- The steps of a transaction that issue no request: the two settling delays (R160, R189). -/
def State.delayStep (s : State) : Option State :=
  match s.pc with
  | .u8 => some s.settleAfterArm
  | .u11 => some s.settleAfterData
  | .u0 | .u1 | .u2 | .u3 | .u4 | .u5 | .u6 | .u7 | .u9 | .u10 | .u12 | .u13 => none

/-- The step when no instruction is due: idle (R152, R261), the write of a MODIFY (R133), a settling delay, or the exit
of an operation whose last part is done (R145, R206). Nothing where the registers stand at no control position (log 18). -/
def State.internalStep (s : State) : Option State :=
  match s.op with
  | .none =>
    match s.modifying with
    | some m => some (s.finishModify m)
    | none => some s
  | .cfgbus => if s.cs = 3 then some s.configDone else none
  | .xfer => s.delayStep
  | .runtable => if s.pc = .u0 ∧ ¬ s.ci < s.tlen then some s.tableLoop else s.delayStep

/-! ## Placing an instruction where the next step takes it from (for the host's questions). Log 16. -/

/-- The machine idle, with HOST presenting an encoding next. -/
def State.present (e : Encoded) (s : State) : State :=
  { s with op := .none, pc := .u0, modifying := none, hostIn := e :: s.hostIn }

/-- A transaction in progress at a micro-step. -/
def State.atMicroStep (pc : MicroPc) (s : State) : State := { s with op := .xfer, pc := pc }

/-- Sets what makes `i`, encoded as `e`, the next instruction: for one of the twelve requests the control position at
which SEQ emits it and the registers it carries; for a table entry a table of that entry; for a host command or a
primitive the machine idle with HOST presenting it, configured where the command asks for it. -/
def State.place (i : Instr) (e : Encoded) (s : State) : State :=
  match i with
  | .srst => s.atMicroStep .u1
  | .rdSyss => s.atMicroStep .u2
  | .wrBuf => s.atMicroStep .u3
  | .wrSa a => { s with sa := a }.atMicroStep .u4
  | .wrCnt n => { s with cnt := n }.atMicroStep .u5
  | .rdIrqraw => s.atMicroStep .u6
  | .wrCon en => { s with par := { s.par with conEnable := en } }.atMicroStep .u7
  | .wrData b => { s with pay := [b], cnt := 1, bi := 0 }.atMicroStep .u10
  | .clrXrdy => s.atMicroStep .u12
  | .wrPsc v => { s with op := .cfgbus, cs := 0, cfg := { s.cfg with psc := v } }
  | .wrScll v => { s with op := .cfgbus, cs := 1, cfg := { s.cfg with scll := v } }
  | .wrSclh v => { s with op := .cfgbus, cs := 2, cfg := { s.cfg with sclh := v } }
  | .regwr reg val => { s with op := .runtable, pc := .u0, tbl := [{ reg := reg, val := val }], tlen := 1, ci := 0 }
  | .cfgbus _ _ _ => s.present e
  | .xfer _ _ _ => { s with cfgd := true }.present e
  | .runtable _ _ _ => { s with cfgd := true }.present e
  | .read _ => s.present e
  | .write _ _ => s.present e
  | .modify _ _ _ => s.present e

/-- `place` for a word of the opcode table; words that name no instruction are presented as they are, so that the
next step meets them. -/
def State.placeTableWord (nbits w : Nat) (s : State) : State :=
  match Encoded.ofTableWord nbits w with
  | none => s
  | some e =>
    match decode e with
    | .ok i => s.place i e
    | .error _ => s.present e

end Sys2Proof.Machine
end

