-- ==== Sys2Proof/Machine/Step.lean ====
section
/-! DEFINITION. One step of the machine: fetch, decode, run; or the step that has no encoding (R10). -/

namespace Sys2Proof.Machine

/-- One step: the next instruction is run on the state that has taken it; HC code 00 asks for nothing and is taken
(log 23); words that name no instruction are refused; with no instruction due, the internal step. -/
def step (s : State) : Host.Outcome State Fault Refusal :=
  match s.fetch with
  | some e =>
    match decode e with
    | .ok i => exec i s.consume
    | .error .noOperation => .next s.consume
    | .error .readWithData => .refused (.undecodable .readWithData)
    | .error .notAModifyPair => .refused (.undecodable .notAModifyPair)
  | none =>
    match s.internalStep with
    | some t => .next t
    | none => .fault .noControlPosition

/-- The state with the instruction of an opcode-table word placed where the next step takes it from. Log 16. -/
def State.withFetchWord (s : State) (nbits w : Nat) : State := s.placeTableWord nbits w

end Sys2Proof.Machine
end

