-- ==== Sys2Proof/Machine/Servo.lean ====
section
/-! DEFINITION. The adjunct outside the block (R7, R215): the servo command encoder, a pure function that makes tables
for RUNTABLE. -/

namespace Sys2Proof.Machine

/-- The off count of an angle in degrees: defined on the three reference angles, every other is rejected (R216, R217,
R221). -/
def angleToOffCount (angle : Int) : Option (BitVec 16) :=
  if angle = -90 then some 0x0CC
  else if angle = 0 then some 0x132
  else if angle = 90 then some 0x199
  else none

/-- The four entries that set an on count of 0 and an off count: low byte before high, on before off (R219). -/
def offCountTable (p : Params) (off : BitVec 16) : List CommandEntry :=
  [ { reg := p.onL, val := 0x00 },
    { reg := p.onH, val := 0x00 },
    { reg := p.offL, val := off.extractLsb' 0 8 },
    { reg := p.offH, val := (off.extractLsb' 8 4).setWidth 8 } ]

/-- servoTable (R219); no table for a rejected angle (R221). -/
def servoTable (p : Params) (angle : Int) : Option (List CommandEntry) :=
  (angleToOffCount angle).map (offCountTable p)

end Sys2Proof.Machine
end

