-- ==== Sys2Proof/WellFormed.lean ====
section
/-! DEFINITION. When an instruction is well formed: the operands are inside the domains of R103, R118 and R134, and
a READ or WRITE is not one of the twelve requests that have a row of their own (R106). -/

namespace Sys2Proof

/-- The offset belongs to one of the eleven registers (R134). -/
def mappedOffset (off : Byte) : Bool := (CtrlReg.ofOffset? off).isSome

/-- A write that one of the ten specific write rows of R104 names. -/
def hasWriteRow (off : Byte) (data : Word) : Bool :=
  (off == 0x10 && data == 0x2) || (off == 0x24 && data == 0x10) || (off == 0x94 && data == 0x41)
    || (off == 0x98 && data.toNat < 2 ^ 16) || (off == 0x9C && data.toNat < 2 ^ 8)
    || (off == 0xA4 && data.toNat % 4 == 3) || (off == 0xAC && data.toNat < 2 ^ 7)
    || off == 0xB0 || off == 0xB4 || off == 0xB8

/-- Whether an instruction is well formed. -/
def WellFormed : Instr → Bool
  | .srst | .rdIrqraw | .clrXrdy | .rdSyss | .wrBuf => true
  | .wrCnt _ | .wrData _ | .wrCon _ | .wrSa _ | .wrPsc _ | .wrScll _ | .wrSclh _ => true
  | .regwr _ _ => true
  | .cfgbus _ _ _ => true
  | .xfer sa n payload => decide (sa ≤ 0x7F) && decide (1 ≤ n) && decide (n ≤ 65535) && decide (payload.length = n)
  | .runtable sa tlen table => decide (sa ≤ 0x7F) && decide (table.length = tlen)
  | .read off => mappedOffset off && !(off == 0x24) && !(off == 0x90)
  | .write off v => mappedOffset off && !hasWriteRow off v
  | .modify off _ _ => mappedOffset off

end Sys2Proof
end

