-- ==== Sys2Proof/Safety.lean ====
section
/-! DEFINITION. The terms claims are stated in: where a transaction stands, the invariant of the machine, the edges of
the transition table, the event lists of whole transactions, and runs of several steps. -/

namespace Sys2Proof.Machine

/-! ## Positions -/

/-- A transaction is in progress, started by an XFER or by a table entry, and stands at a micro-step. -/
def State.inTransaction (pc : MicroPc) (s : State) : Prop := (s.op = .xfer ∨ s.op = .runtable) ∧ s.pc = pc

/-- One more failed read uses up the budget of the poll (R180, R182). -/
def State.lastRead (s : State) : Prop := ∃ b, s.par.pollBound = some b ∧ b.val ≤ s.pk + 1

/-- The content of a controller register. -/
def Controller.reg (c : Controller) : CtrlReg → Word
  | .softReset => c.softReset
  | .irqStatusRaw => c.irqStatusRaw
  | .resetStatus => c.resetStatus
  | .fifoBuffer => c.fifoBuffer
  | .byteCount => c.byteCount
  | .data => c.data
  | .control => c.control
  | .slaveAddr => c.slaveAddr
  | .prescale => c.prescale
  | .clockLow => c.clockLow
  | .clockHigh => c.clockHigh

/-! ## The invariant -/

/-- How many bytes of the payload have been written to DATA (R25, R188, R190). -/
def State.bytesSent (s : State) : Nat :=
  match s.pc with
  | .u9 | .u10 => s.bi.toNat
  | .u11 | .u12 => s.bi.toNat + 1
  | .u13 => s.bi.toNat
  | .u0 | .u1 | .u2 | .u3 | .u4 | .u5 | .u6 | .u7 | .u8 => 0

/-- The count is the payload's length and no payload is empty (R22, R23, R151). -/
def State.CountInv (s : State) : Prop := s.cnt.toNat = s.pay.length ∧ 1 ≤ s.pay.length

/-- The byte index points into the payload inside the byte loop and past its end after it (R25, R171, R191). -/
def State.IndexInv (s : State) : Prop :=
  (9 ≤ s.pc.code → s.pc.code ≤ 12 → s.bi.toNat < s.cnt.toNat) ∧ (s.pc = .u13 → s.bi = s.cnt)

/-- While a poll runs its failed reads are below the bound (R171, R182). -/
def State.PollInv (s : State) : Prop :=
  ∀ b, s.par.pollBound = some b → s.pc.poll?.isSome = true → s.pk < b.val

/-- The controller registers a transaction has set up hold what it wrote there (R155 to R159), a frame is in progress
once armed (R56), the hidden counter and the bytes handed over agree with the byte loop, so that the counter reaches
zero exactly when the payload is exhausted (R54, R166, R191), and a byte is only written to a data register seen empty
(R192). Log 11, log 28, log 29. -/
def State.ControllerInv (s : State) : Prop :=
  (4 ≤ s.pc.code → s.ctrl.fifoBuffer = 0x41 ∧ s.ctrl.threshold = Config.fifoThreshold ∧
    s.ctrl.txBytes = s.pay.take s.bytesSent) ∧
  (5 ≤ s.pc.code → s.ctrl.slaveAddr.toNat = s.sa.toNat) ∧
  (6 ≤ s.pc.code → s.ctrl.byteCount.toNat = s.cnt.toNat ∧ s.ctrl.byteCounter.toNat + s.bytesSent = s.cnt.toNat) ∧
  (8 ≤ s.pc.code → s.ctrl.control = conEnableWord s.par ||| 3 ∧ s.ctrl.framing = true) ∧
  (s.pc = .u10 → s.ctrl.dataEmpty = true) ∧
  (s.pc = .u11 ∨ s.pc = .u12 → s.ctrl.dataEmpty = false)

/-- What holds throughout a transaction. -/
def State.TransactionInv (s : State) : Prop :=
  s.CountInv ∧ s.IndexInv ∧ s.PollInv ∧ s.ControllerInv

/-- The invariant of the machine: idle at u0 (R31, R59); CFGBUS at u0 with a write still due (R141); a transaction of an
XFER never at u0 (R150); a RUNTABLE with an entry in progress or due, whose transaction carries that entry's two
bytes (R203, R205); an operation in progress has no result yet (R28), only a configured machine runs
transactions (R148), and no MODIFY is half done during an operation (R268). -/
def State.Inv (s : State) : Prop :=
  match s.op with
  | .none => s.pc = .u0
  | .cfgbus => s.modifying = none ∧ s.pc = .u0 ∧ s.cs ≠ 3 ∧ s.res = .none
  | .xfer => s.modifying = none ∧ s.pc ≠ .u0 ∧ s.res = .none ∧ s.cfgd = true ∧ s.TransactionInv
  | .runtable =>
    s.modifying = none ∧ s.res = .none ∧ s.cfgd = true ∧ s.tlen = s.tbl.length ∧ s.ci < s.tlen ∧
    (s.pc ≠ .u0 → s.TransactionInv ∧ s.tbl[s.ci]?.map (fun e => [e.reg, e.val]) = some s.pay)

/-! ## The transition table -/

/-- The edges of the micro-pc (R163). -/
def pcEdge : MicroPc → MicroPc → Bool
  | .u0, .u1 => true
  | .u1, .u2 => true
  | .u2, .u2 | .u2, .u3 | .u2, .u0 => true
  | .u3, .u4 => true
  | .u4, .u5 => true
  | .u5, .u6 => true
  | .u6, .u6 | .u6, .u7 | .u6, .u0 => true
  | .u7, .u8 => true
  | .u8, .u9 => true
  | .u9, .u9 | .u9, .u10 | .u9, .u0 => true
  | .u10, .u11 => true
  | .u11, .u12 => true
  | .u12, .u9 | .u12, .u13 => true
  | .u13, .u13 | .u13, .u0 => true
  | _, _ => false

/-- The instructions that are requests SEQ emits: the twelve rows of R104. -/
def isSequencerRequest : Instr → Bool
  | .srst | .rdIrqraw | .clrXrdy | .rdSyss | .wrBuf | .wrCnt _ | .wrData _ | .wrCon _ | .wrSa _
  | .wrPsc _ | .wrScll _ | .wrSclh _ => true
  | .regwr _ _ | .cfgbus _ _ _ | .xfer _ _ _ | .runtable _ _ _ | .read _ | .write _ _ | .modify _ _ _ => false

/-- The two requests of a MODIFY: a read that carries no data, and a write, of one offset (R133, R101). -/
def isModifyPair (rd wr : RbWord) : Prop :=
  rd.getLsbD 40 = false ∧ rd.extractLsb' 0 32 = 0 ∧ wr.getLsbD 40 = true ∧ rd.extractLsb' 32 8 = wr.extractLsb' 32 8

/-! ## Runs -/

/-- `k` steps, stopping at the first fault or refusal. -/
def runFor : Nat → State → Host.Outcome State Fault Refusal
  | 0, s => .next s
  | k + 1, s =>
    match step s with
    | .next t => runFor k t
    | .fault f => .fault f
    | .refused r => .refused r

/-- The answers of one poll: some that fail, then the one that passes. -/
structure PollAnswers where
  fails : List Word
  last : Word
  deriving DecidableEq, Repr

/-- All the answers of a poll, in order. -/
def PollAnswers.all (a : PollAnswers) : List Word := a.fails ++ [a.last]

/-- The answers fail and pass as a poll wants, within its budget (R180, R182). -/
def PollAnswers.Passes (par : Params) (p : PollSpec) (a : PollAnswers) : Prop :=
  (∀ v ∈ a.fails, v.getLsbD p.bit ≠ p.want) ∧ a.last.getLsbD p.bit = p.want ∧
    ∀ b, par.pollBound = some b → a.fails.length < b.val

/-- The read events of a poll (R162). -/
def PollAnswers.events (off : Byte) (a : PollAnswers) : List Event := a.all.map (Event.read off)

/-- A bit vector's value as a word of the register bus. -/
def wordOf {n : Nat} (v : BitVec n) : Word := BitVec.ofNat 32 v.toNat

/-- The events before the byte loop (R162). -/
def setupEvents (par : Params) (sa : BitVec 7) (n : Nat) (rst bus : PollAnswers) : List Event :=
  [.write 0x10 0x2] ++ rst.events 0x90 ++
  [.write 0x94 0x41, .write 0xAC (wordOf sa), .write 0x98 (BitVec.ofNat 32 n)] ++
  bus.events 0x24 ++ [.write 0xA4 (conEnableWord par ||| 3), .settle]

/-- The events of one byte (R162, R186). -/
def byteEvents (b : Byte) (rdy : PollAnswers) : List Event :=
  rdy.events 0x24 ++ [.write 0x9C (wordOf b), .settle, .write 0x24 0x10]

/-- The events of a whole transaction (R162): the payload's bytes each with the answers of its poll. -/
def transactionEvents (par : Params) (sa : BitVec 7) (bytes : List (Byte × PollAnswers))
    (rst bus done : PollAnswers) : List Event :=
  setupEvents par sa bytes.length rst bus ++ bytes.flatMap (fun x => byteEvents x.1 x.2) ++ done.events 0x24

/-- The answers a transaction takes, in order. -/
def transactionAnswers (bytes : List (Byte × PollAnswers)) (rst bus done : PollAnswers) : List Word :=
  rst.all ++ bus.all ++ bytes.flatMap (fun x => x.2.all) ++ done.all

/-- The steps a transaction takes: nine, four for each byte, and one more for each failed read. -/
def transactionSteps (bytes : List (Byte × PollAnswers)) (rst bus done : PollAnswers) : Nat :=
  9 + 4 * bytes.length + rst.fails.length + bus.fails.length +
    (bytes.map fun x => x.2.fails.length).sum + done.fails.length

/-- Every poll of a transaction passes. -/
def TransactionPasses (par : Params) (bytes : List (Byte × PollAnswers)) (rst bus done : PollAnswers) : Prop :=
  rst.Passes par pollRdone ∧ bus.Passes par pollBb ∧ (∀ x ∈ bytes, x.2.Passes par pollXrdy) ∧ done.Passes par pollBf

/-- One table entry with the answers of its five polls. -/
structure EntryRun where
  entry : CommandEntry
  rst : PollAnswers
  bus : PollAnswers
  first : PollAnswers
  second : PollAnswers
  done : PollAnswers
  deriving DecidableEq, Repr

/-- The two payload bytes of an entry with the answers of their polls (R24, R205). -/
def EntryRun.bytes (e : EntryRun) : List (Byte × PollAnswers) := [(e.entry.reg, e.first), (e.entry.val, e.second)]

/-- The sequencer and its inputs stand alike: everything that may decide what SEQ does next (R32, R34), but neither the
controller, the trace, the frame list nor the last result. -/
def State.SameControl (s t : State) : Prop :=
  t = { s with ctrl := t.ctrl, trace := t.trace, frames := t.frames, res := t.res, fidx := t.fidx }

end Sys2Proof.Machine
end

