-- ==== Sys2Proof/Certificates/Slice0/Obligations.lean ====
section
/-! DEFINITION. The statements about I2CMC, from the numbered rules of its spec. Each docstring names the rules.
A next state is written `t = { s with … }`: every field not named there is unchanged, which is the instruction's
frame. That a write keeps the rest of the controller is the model's choice (log 31), since R83 leaves it open. `reqs` is
the model's own index of free values; no statement rests on its value. -/

open Sys2Proof Sys2Proof.Machine

/-! ## Encoding -/

/-- R101 to R106, R102, R103: decoding the words of a well-formed instruction gives it back, with every operand at
every value its encoding admits. -/
def Obligations.DecodeOfEncodeIsTheInstruction : Prop :=
  ∀ i : Instr, WellFormed i = true → decode (encode i) = .ok i

/-- R101, R106: a register-bus request has one meaning: the instruction it decodes to encodes to it. -/
def Obligations.EncodeOfDecodedRequestIsTheRequest : Prop :=
  ∀ (w : RbWord) (i : Instr), decode (.rb w) = .ok i → encode i = .rb w

/-- R104, R106: of the twelve requests, each is decoded exactly from the words that meet its row's match and mask. -/
def Obligations.TwelveRowsDecodeByMatchAndMask : Prop :=
  ∀ w : RbWord,
    (decode (.rb w) = .ok .srst ↔ w &&& 0x1FFFFFFFFFF = 0x11000000002) ∧
    (decode (.rb w) = .ok .rdIrqraw ↔ w &&& 0x1FFFFFFFFFF = 0x02400000000) ∧
    (decode (.rb w) = .ok .clrXrdy ↔ w &&& 0x1FFFFFFFFFF = 0x12400000010) ∧
    (decode (.rb w) = .ok .rdSyss ↔ w &&& 0x1FFFFFFFFFF = 0x09000000000) ∧
    (decode (.rb w) = .ok .wrBuf ↔ w &&& 0x1FFFFFFFFFF = 0x19400000041) ∧
    ((∃ n, decode (.rb w) = .ok (.wrCnt n)) ↔ w &&& 0x1FFFFFF0000 = 0x19800000000) ∧
    ((∃ b, decode (.rb w) = .ok (.wrData b)) ↔ w &&& 0x1FFFFFFFF00 = 0x19C00000000) ∧
    ((∃ e, decode (.rb w) = .ok (.wrCon e)) ↔ w &&& 0x1FF00000003 = 0x1A400000003) ∧
    ((∃ a, decode (.rb w) = .ok (.wrSa a)) ↔ w &&& 0x1FFFFFFFF80 = 0x1AC00000000) ∧
    ((∃ v, decode (.rb w) = .ok (.wrPsc v)) ↔ w &&& 0x1FF00000000 = 0x1B000000000) ∧
    ((∃ v, decode (.rb w) = .ok (.wrScll v)) ↔ w &&& 0x1FF00000000 = 0x1B400000000) ∧
    ((∃ v, decode (.rb w) = .ok (.wrSclh v)) ↔ w &&& 0x1FF00000000 = 0x1B800000000)

/-- R117, R102: every entry word is legal: it is the entry of the two bytes that make it up, REG the upper one. -/
def Obligations.EveryEntryWordIsLegal : Prop :=
  ∀ w : CeWord, ∃ reg val : Byte, decode (.ce w) = .ok (.regwr reg val) ∧ reg.toNat * 256 + val.toNat = w.toNat

/-- R104, R102, R103: words written out from the spec (its examples and vectors) decode to the instruction they stand
for. -/
def Obligations.SpecWordsDecode : Prop :=
  decode (.rb 0x11000000002) = .ok .srst ∧
  decode (.rb 0x02400000000) = .ok .rdIrqraw ∧
  decode (.rb 0x12400000010) = .ok .clrXrdy ∧
  decode (.rb 0x1AC00000040) = .ok (.wrSa 0x40) ∧
  decode (.rb 0x1A400008603) = .ok (.wrCon 0x2180) ∧
  decode (.rb 0x19C000000A5) = .ok (.wrData 0xA5) ∧
  decode (.rb 0x1B000000003) = .ok (.wrPsc 3) ∧
  decode (.ce 0xFE79) = .ok (.regwr 0xFE 0x79) ∧
  decode (.hc 1 { psc := 3, scll := 9, sclh := 9 }) = .ok (.cfgbus 3 9 9)

/-! ## The step -/

/-- R32 (the model's fetch: log 4, log 16): when the words of the next instruction decode, the step runs it on the state
that has taken it, which differs from the state only by the command HOST presented, and only when idle. -/
def Obligations.StepRunsTheDecodedInstruction : Prop :=
  ∀ (s : State) (e : Encoded) (i : Instr), s.fetch = some e → decode e = .ok i →
    step s = exec i s.consume ∧
    (s.op ≠ .none → s.consume = s) ∧ (s.op = .none → s.consume = { s with hostIn := s.hostIn.tail })

/-- R32, R104: while an operation runs, the words of the next instruction are those of the request SEQ emits at its
control position; at u0 of a RUNTABLE they are those of the entry that is due (R203); when idle, what HOST presents, but
while a MODIFY is half done its write comes first (log 14). -/
def Obligations.FetchFollowsTheControlPosition : Prop :=
  ∀ s : State,
    (s.op = .none → s.modifying = none → s.fetch = s.hostIn.head?) ∧
    (s.op = .none → s.modifying ≠ none → s.fetch = none) ∧
    (s.op = .runtable → s.pc = .u0 → ∀ e, s.ci < s.tlen → s.tbl[s.ci]? = some e → s.fetch = some (.ce e.word)) ∧
    (s.op ≠ .none → ¬ (s.op = .runtable ∧ s.pc = .u0) → s.fetch = s.request.map fun r => .rb r.word)

/-- R152, R261: idle with nothing presented and no MODIFY half done, nothing changes. -/
def Obligations.IdleStaysIdle : Prop :=
  ∀ s : State, s.op = .none → s.modifying = none → s.hostIn = [] → step s = .next s

/-- R160, R184, R189: the settling delays of u8 and u11 issue no request, append the marker SETTLE, and advance the
micro-pc; u8 also starts the byte loop at byte 0. -/
def Obligations.SettlingDelaySteps : Prop :=
  ∀ s : State,
    (s.inTransaction .u8 → step s = .next { s with trace := s.trace ++ [.settle], bi := 0, pk := 0, pc := .u9 }) ∧
    (s.inTransaction .u11 → step s = .next { s with trace := s.trace ++ [.settle], pc := .u12 })

/-! ## The twelve requests, at the micro-step that emits each -/

/-- R153: SRST at u1. RESET-STATUS reads 0 until the reset is complete (R38) and the bit-rate registers survive (R57,
D22, the spec's own assumption); nothing else is known of the controller (R61). Log 7. -/
def Obligations.SrstStartsTheReset : Prop :=
  ∀ s : State, s.inTransaction .u1 →
    ∃ t : State, exec .srst s = .next t ∧
      t = { s with pc := .u2, pk := 0, trace := s.trace ++ [.write 0x10 0x2], reqs := t.reqs, ctrl := t.ctrl } ∧
      t.ctrl.resetDone = false ∧ t.ctrl.prescale = s.ctrl.prescale ∧
      t.ctrl.clockLow = s.ctrl.clockLow ∧ t.ctrl.clockHigh = s.ctrl.clockHigh

/-- R154, R163, R182, R232, R236: one read of the reset-complete poll: bit 0 set passes to u3, clear stays, and clear on
the last allowed read ends the operation with ResetTimeout. That the register stands as answered is log 3. -/
def Obligations.ResetPollRead : Prop :=
  ∀ s : State, s.inTransaction .u2 →
    ∃ t u : State, exec .rdSyss s = .next t ∧
      u = { s with trace := s.trace ++ [.read 0x90 s.answer], answers := s.answers.tail, reqs := t.reqs,
                   ctrl := { s.ctrl with resetStatus := s.answer } } ∧
      (s.answer.getLsbD 0 = true → t = { u with pc := .u3 }) ∧
      (s.answer.getLsbD 0 = false → ¬ s.lastRead → t = { u with pk := s.pk + 1 }) ∧
      (s.answer.getLsbD 0 = false → s.lastRead →
        t = { u with pk := s.pk + 1, res := .timeout .reset, pc := .u0, op := .none,
                     fidx := if s.op = .runtable then s.ci else 0 })

/-- R155: WR.BUF at u3 writes 0x41, which clears the FIFO and sets its threshold (R44, R83; the threshold's value is open:
log 29). That the write keeps the rest of the controller, the data register's emptiness among it, is log 31. -/
def Obligations.WrBufClearsTheFifo : Prop :=
  ∀ s : State, s.inTransaction .u3 →
    ∃ t : State, exec .wrBuf s = .next t ∧
      t = { s with pc := .u4, trace := s.trace ++ [.write 0x94 0x41], reqs := t.reqs,
                   ctrl := { s.ctrl with fifoBuffer := 0x41, txBytes := [], threshold := Config.fifoThreshold } }

/-- R156, R107: WR.SA at u4 writes the slave address, zero-extended. That the write keeps the rest of the controller is
log 31. -/
def Obligations.WrSaWritesTheSlaveAddress : Prop :=
  ∀ s : State, s.inTransaction .u4 →
    ∃ t : State, exec (.wrSa s.sa) s = .next t ∧
      t = { s with pc := .u5, trace := s.trace ++ [.write 0xAC (wordOf s.sa)], reqs := t.reqs,
                   ctrl := { s.ctrl with slaveAddr := wordOf s.sa } }

/-- R157, R108, R54: WR.CNT at u5 writes the byte count and loads the hidden counter with it. That the write keeps the
rest of the controller is log 31. -/
def Obligations.WrCntLoadsTheCounter : Prop :=
  ∀ s : State, s.inTransaction .u5 →
    ∃ t : State, exec (.wrCnt s.cnt) s = .next t ∧
      t = { s with pc := .u6, pk := 0, trace := s.trace ++ [.write 0x98 (wordOf s.cnt)], reqs := t.reqs,
                   ctrl := { s.ctrl with byteCount := wordOf s.cnt, byteCounter := s.cnt } }

/-- R158, R163, R182, R233, R236: one read of the bus-busy poll: bit 12 clear passes to u7, set stays, and set on the
last allowed read ends the operation with BusBusyTimeout; the frame list is unchanged. That the register stands as
answered is log 3. -/
def Obligations.BusBusyPollRead : Prop :=
  ∀ s : State, s.inTransaction .u6 →
    ∃ t u : State, exec .rdIrqraw s = .next t ∧
      u = { s with trace := s.trace ++ [.read 0x24 s.answer], answers := s.answers.tail, reqs := t.reqs,
                   ctrl := { s.ctrl with irqStatusRaw := s.answer } } ∧
      (s.answer.getLsbD 12 = false → t = { u with pc := .u7 }) ∧
      (s.answer.getLsbD 12 = true → ¬ s.lastRead → t = { u with pk := s.pk + 1 }) ∧
      (s.answer.getLsbD 12 = true → s.lastRead →
        t = { u with pk := s.pk + 1, res := .timeout .busBusy, pc := .u0, op := .none,
                     fidx := if s.op = .runtable then s.ci else 0 })

/-- R159, R110: WR.CON at u7 writes CON_ENABLE with START and STOP both set, CON_ENABLE's own bits 1:0 being 0, and the
frame begins (R83). That CONTROL keeps the value written, and when the frame begins, is log 11; that the
write keeps the rest of the controller is log 31. -/
def Obligations.WrConArmsStartAndStop : Prop :=
  ∀ s : State, s.inTransaction .u7 →
    ∃ t : State, exec (.wrCon s.par.conEnable) s = .next t ∧
      t = { s with pc := .u8, trace := s.trace ++ [.write 0xA4 (conEnableWord s.par ||| 3)], reqs := t.reqs,
                   ctrl := { s.ctrl with control := conEnableWord s.par ||| 3, framing := true } } ∧
      (conEnableWord s.par).toNat % 4 = 0

/-- R187, R163, R182, R234, R236, R169: one read of the transmit-ready poll: bit 4 set passes to u10, clear stays, and
clear on the last allowed read ends the operation with TransmitReadyTimeout and the marker Unknown. That the register
stands as answered is log 3; that the data register is empty once bit 4 is seen is log 28. -/
def Obligations.TransmitReadyPollRead : Prop :=
  ∀ s : State, s.inTransaction .u9 →
    ∃ t u : State, exec .rdIrqraw s = .next t ∧
      u = { s with trace := s.trace ++ [.read 0x24 s.answer], answers := s.answers.tail, reqs := t.reqs,
                   ctrl := { s.ctrl with irqStatusRaw := s.answer } } ∧
      (s.answer.getLsbD 4 = true → t = { u with pc := .u10, ctrl := { u.ctrl with dataEmpty := true } }) ∧
      (s.answer.getLsbD 4 = false → ¬ s.lastRead → t = { u with pk := s.pk + 1 }) ∧
      (s.answer.getLsbD 4 = false → s.lastRead →
        t = { u with pk := s.pk + 1, res := .timeout .transmitReady, pc := .u0, op := .none,
                     fidx := if s.op = .runtable then s.ci else 0, frames := s.frames ++ [.unknown s.sa] })

/-- R188, R109, R54, R83: WR.DATA at u10 writes the payload byte of the byte index, zero-extended; the controller takes
the byte, its counter, when not already 0, runs down by one, and its data register is no longer empty. That the bytes
handed over are kept in a list until the next clear is log 11; that the write keeps the rest of the controller is
log 31. At u10 of every run a frame is in progress (StepKeepsTheInvariant); that a state without one does the same is
log 32. -/
def Obligations.WrDataSendsTheIndexedByte : Prop :=
  ∀ (s : State) (b : Byte), s.inTransaction .u10 → s.pay[s.bi.toNat]? = some b →
    ∃ t : State, exec (.wrData b) s = .next t ∧
      t = { s with pc := .u11, trace := s.trace ++ [.write 0x9C (wordOf b)], reqs := t.reqs,
                   ctrl := { s.ctrl with data := wordOf b, txBytes := s.ctrl.txBytes ++ [b],
                                         byteCounter := t.ctrl.byteCounter, dataEmpty := false } } ∧
      (s.ctrl.byteCounter ≠ 0 → t.ctrl.byteCounter.toNat + 1 = s.ctrl.byteCounter.toNat)

/-- R190, R82, R191: CLR.XRDY at u12 clears transmit-ready and no other status bit, advances the byte index, and returns
to u9 while bytes remain, else goes to u13. The index is below the count, as it is at u12 (R171). What the status
register held before the clear is log 3; that the write keeps the rest of the controller is log 31. -/
def Obligations.ClrXrdyAdvancesTheByteIndex : Prop :=
  ∀ s : State, s.inTransaction .u12 → s.bi.toNat < s.cnt.toNat →
    ∃ t : State, exec .clrXrdy s = .next t ∧
      t = { s with pc := if s.bi.toNat + 1 < s.cnt.toNat then .u9 else .u13, bi := t.bi, pk := 0,
                   trace := s.trace ++ [.write 0x24 0x10], reqs := t.reqs,
                   ctrl := { s.ctrl with irqStatusRaw := s.ctrl.irqStatusRaw &&& ~~~0x10 } } ∧
      t.bi.toNat = s.bi.toNat + 1 ∧ t.ctrl.txReady = false

/-- R161, R163, R182, R235, R236: one read of the completion poll of an XFER: bit 8 set records the frame and completes
the operation with OK, clear stays, and clear on the last allowed read ends it with TransferCompleteTimeout and the
marker Unknown. That the frame is over once bit 8 is seen is log 11; that the register stands as answered is log 3. -/
def Obligations.CompletionPollReadOfXfer : Prop :=
  ∀ s : State, s.op = .xfer → s.pc = .u13 →
    ∃ t u : State, exec .rdIrqraw s = .next t ∧
      u = { s with trace := s.trace ++ [.read 0x24 s.answer], answers := s.answers.tail, reqs := t.reqs,
                   ctrl := { s.ctrl with irqStatusRaw := s.answer } } ∧
      (s.answer.getLsbD 8 = true →
        t = { u with pc := .u0, op := .none, res := .ok, frames := s.frames ++ [.frame s.sa s.pay],
                     ctrl := { u.ctrl with framing := false } }) ∧
      (s.answer.getLsbD 8 = false → ¬ s.lastRead → t = { u with pk := s.pk + 1 }) ∧
      (s.answer.getLsbD 8 = false → s.lastRead →
        t = { u with pk := s.pk + 1, res := .timeout .transferComplete, pc := .u0, op := .none, fidx := 0,
                     frames := s.frames ++ [.unknown s.sa] })

/-- R161, R206, R207, R236: one read of the completion poll of a table entry: bit 8 set records the frame and goes to
the next entry, or completes the table with OK after the last; clear stays; clear on the last allowed read aborts the
table with the entry's index. The controller's part is log 3 and log 11. -/
def Obligations.CompletionPollReadOfEntry : Prop :=
  ∀ s : State, s.op = .runtable → s.pc = .u13 →
    ∃ t u : State, exec .rdIrqraw s = .next t ∧
      u = { s with trace := s.trace ++ [.read 0x24 s.answer], answers := s.answers.tail, reqs := t.reqs,
                   ctrl := { s.ctrl with irqStatusRaw := s.answer } } ∧
      (s.answer.getLsbD 8 = true → s.ci + 1 < s.tlen →
        t = { u with pc := .u0, ci := s.ci + 1, frames := s.frames ++ [.frame s.sa s.pay],
                     ctrl := { u.ctrl with framing := false } }) ∧
      (s.answer.getLsbD 8 = true → ¬ s.ci + 1 < s.tlen →
        t = { u with pc := .u0, ci := s.ci + 1, op := .none, res := .ok,
                     frames := s.frames ++ [.frame s.sa s.pay], ctrl := { u.ctrl with framing := false } }) ∧
      (s.answer.getLsbD 8 = false → ¬ s.lastRead → t = { u with pk := s.pk + 1 }) ∧
      (s.answer.getLsbD 8 = false → s.lastRead →
        t = { u with pk := s.pk + 1, res := .timeout .transferComplete, pc := .u0, op := .none, fidx := s.ci,
                     frames := s.frames ++ [.unknown s.sa] })

/-- R142, R143, R144, R145, R112: the three writes of CFGBUS, in order, each the whole 32-bit value given; the third
completes the operation. That each write keeps the rest of the controller is log 31. -/
def Obligations.ConfigurationWrites : Prop :=
  ∀ s : State, s.op = .cfgbus →
    (s.cs = 0 → ∃ t : State, exec (.wrPsc s.cfg.psc) s = .next t ∧
      t = { s with cs := 1, trace := s.trace ++ [.write 0xB0 s.cfg.psc], reqs := t.reqs,
                   ctrl := { s.ctrl with prescale := s.cfg.psc } }) ∧
    (s.cs = 1 → ∃ t : State, exec (.wrScll s.cfg.scll) s = .next t ∧
      t = { s with cs := 2, trace := s.trace ++ [.write 0xB4 s.cfg.scll], reqs := t.reqs,
                   ctrl := { s.ctrl with clockLow := s.cfg.scll } }) ∧
    (s.cs = 2 → ∃ t : State, exec (.wrSclh s.cfg.sclh) s = .next t ∧
      t = { s with cs := 3, cfgd := true, res := .ok, op := .none,
                   trace := s.trace ++ [.write 0xB8 s.cfg.sclh], reqs := t.reqs,
                   ctrl := { s.ctrl with clockHigh := s.cfg.sclh } })

/-! ## Host operations -/

/-- R140, R147, R148, R62: CFGBUS is accepted when idle, any number of times, with any three values. -/
def Obligations.CfgbusAcceptedWhenIdle : Prop :=
  ∀ (s : State) (psc scll sclh : Word), s.op = .none →
    exec (.cfgbus psc scll sclh) s =
      .next { s with op := .cfgbus, res := .none, cfg := ⟨psc, scll, sclh⟩, cs := 0, pk := 0 }

/-- R151, R118: XFER is refused by the first of its checks that fails: busy, not configured, address, length (a count
that is not the payload's length among them); else, with a 7-bit address and a payload of 1 to 65535 bytes, it is
accepted, and the count is the payload's length. -/
def Obligations.XferAcceptance : Prop :=
  ∀ (s : State) (sa n : Nat) (payload : List Byte),
    (s.op ≠ .none → exec (.xfer sa n payload) s = .refused .busy) ∧
    (s.op = .none → s.cfgd = false → exec (.xfer sa n payload) s = .refused .notConfigured) ∧
    (s.op = .none → s.cfgd = true → 0x7F < sa → exec (.xfer sa n payload) s = .refused .address) ∧
    (s.op = .none → s.cfgd = true → sa ≤ 0x7F → ¬ (1 ≤ n ∧ n ≤ 65535 ∧ payload.length = n) →
      exec (.xfer sa n payload) s = .refused .length) ∧
    (s.op = .none → s.cfgd = true → sa ≤ 0x7F → 1 ≤ n → n ≤ 65535 → payload.length = n →
      ∃ t : State, exec (.xfer sa n payload) s = .next t ∧
        t = { s with op := .xfer, res := .none, sa := t.sa, pay := payload, cnt := t.cnt, pk := 0, pc := .u1 } ∧
        t.sa.toNat = sa ∧ t.cnt.toNat = payload.length)

/-- R202, R208: RUNTABLE is accepted when idle and configured, with a 7-bit address and a table of any length; an empty
table completes at once with OK. -/
def Obligations.RuntableAccepted : Prop :=
  ∀ (s : State) (sa : Nat) (table : List CommandEntry), s.op = .none → s.cfgd = true → sa ≤ 0x7F →
    ∃ t : State, exec (.runtable sa table.length table) s = .next t ∧ t.sa.toNat = sa ∧
      (table ≠ [] →
        t = { s with op := .runtable, res := .none, sa := t.sa, tbl := table, tlen := table.length, ci := 0, pk := 0,
                     pc := .u0 }) ∧
      (table = [] →
        t = { s with op := .none, res := .ok, sa := t.sa, tbl := [], tlen := 0, ci := 0, pk := 0, pc := .u0 })

/-- R202, R103, R118, R267: RUNTABLE is refused when busy, when not configured, with an address above 0x7F, and with a
table that is not TLEN entries (log 15); CFGBUS is refused when busy. -/
def Obligations.RuntableAndCfgbusRefused : Prop :=
  ∀ (s : State) (sa tlen : Nat) (table : List CommandEntry) (psc scll sclh : Word),
    (s.op ≠ .none → exec (.runtable sa tlen table) s = .refused .busy) ∧
    (s.op = .none → s.cfgd = false → exec (.runtable sa tlen table) s = .refused .notConfigured) ∧
    (s.op = .none → s.cfgd = true → 0x7F < sa → exec (.runtable sa tlen table) s = .refused .address) ∧
    (s.op = .none → s.cfgd = true → sa ≤ 0x7F → table.length ≠ tlen →
      exec (.runtable sa tlen table) s = .refused .tableLength) ∧
    (s.op ≠ .none → exec (.cfgbus psc scll sclh) s = .refused .busy)

/-- R205, R24, R114: REGWR, where the table loop takes an entry, starts a transaction of the entry's two bytes, the
register address first. -/
def Obligations.RegwrStartsTheEntrysTransaction : Prop :=
  ∀ (s : State) (reg val : Byte), s.op = .runtable → s.pc = .u0 → s.ci < s.tlen →
    exec (.regwr reg val) s = .next { s with pay := [reg, val], cnt := 2, pk := 0, pc := .u1 }

/-! ## The register interface -/

/-- R131, R84, R86: READ of any of the eleven registers, between operations, issues one read request with the
environment's answer. The sequencer is unchanged, and of the controller only a status register that was read stands as
answered (log 3); that the read of another register changes none is log 27. That HOST's READ is a primitive is log 12,
and that it runs on the nine registers where it is none of the twelve requests (R115 reads "refuse") is log 30. -/
def Obligations.ReadIssuesOneRequest : Prop :=
  ∀ (s : State) (r : CtrlReg), s.op = .none →
    ∃ t : State, exec (.read r.offset) s = .next t ∧
      t = { s with trace := s.trace ++ [.read r.offset s.answer], answers := s.answers.tail, reqs := t.reqs,
                   ctrl := { s.ctrl with irqStatusRaw := t.ctrl.irqStatusRaw, resetStatus := t.ctrl.resetStatus } } ∧
      (r ≠ .irqStatusRaw → t.ctrl.irqStatusRaw = s.ctrl.irqStatusRaw) ∧
      (r ≠ .resetStatus → t.ctrl.resetStatus = s.ctrl.resetStatus) ∧
      (r = .irqStatusRaw ∨ r = .resetStatus → t.ctrl.reg r = s.answer)

/-- R132, R83: WRITE of any of the eleven registers, between operations, issues one write request of the whole word and
leaves the sequencer unchanged; the eight registers whose written value the spec gives hold it, and no other register
changes. (SOFT-RESET, IRQ-STATUS-RAW and RESET-STATUS do not hold what is written.) The hidden state changes only by the
writes R83 names for it. That a write outside the twelve runs and leaves the rest is log 8, that CONTROL keeps the value
written log 11, that it is a primitive of HOST's side log 12, that one outside the twelve is not refused log 30, and
that a write keeps the rest of the controller log 31. -/
def Obligations.WriteIssuesOneRequest : Prop :=
  ∀ (s : State) (r : CtrlReg) (v : Word), s.op = .none →
    ∃ t : State, exec (.write r.offset v) s = .next t ∧
      t = { s with trace := s.trace ++ [.write r.offset v], reqs := t.reqs, ctrl := t.ctrl } ∧
      (r ≠ .softReset → r ≠ .irqStatusRaw → r ≠ .resetStatus → t.ctrl.reg r = v) ∧
      (r ≠ .softReset → ∀ q, q ≠ r → t.ctrl.reg q = s.ctrl.reg q) ∧
      (r ≠ .softReset → r ≠ .byteCount → r ≠ .data → t.ctrl.byteCounter = s.ctrl.byteCounter) ∧
      (r ≠ .softReset → r ≠ .fifoBuffer → r ≠ .data → t.ctrl.txBytes = s.ctrl.txBytes) ∧
      (r ≠ .softReset → r ≠ .fifoBuffer → t.ctrl.threshold = s.ctrl.threshold) ∧
      (r ≠ .softReset → r ≠ .data → t.ctrl.dataEmpty = s.ctrl.dataEmpty) ∧
      (r ≠ .softReset → r ≠ .control → t.ctrl.framing = s.ctrl.framing)

/-- R82, R278, R111: a write to IRQ-STATUS-RAW clears XRDY if bit 4 of the written value is 1 and leaves it if 0. Every
other bit that is written 0 stays, and BB and BF written 1 are cleared as XRDY is: both are log 9 (R42 leaves the two
flags open). What the status register held before is log 3. That HOST's WRITE is a primitive is log 12, and that it runs
with other data than 0x10, which is none of the twelve requests (R115 reads "refuse"), is log 30. -/
def Obligations.WriteOneToClearXrdy : Prop :=
  ∀ (s : State) (v : Word), s.op = .none →
    ∃ t : State, exec (.write 0x24 v) s = .next t ∧
      (v.getLsbD 4 = true → t.ctrl.txReady = false) ∧
      (v.getLsbD 4 = false → t.ctrl.txReady = s.ctrl.txReady) ∧
      (∀ k, v.getLsbD k = false → t.ctrl.irqStatusRaw.getLsbD k = s.ctrl.irqStatusRaw.getLsbD k) ∧
      (v.getLsbD 8 = true → t.ctrl.transferComplete = false) ∧
      (v.getLsbD 12 = true → t.ctrl.busBusy = false)

/-- R133, R80, R278: MODIFY is two steps, always both: it issues the read that READ issues, and the next step, whatever
HOST presents, the write that WRITE issues, of the word whose bits are `value`'s where `mask` has 1 and the bit just read
where it has 0. Between the two CTRL may change the status registers and nothing else that the model records. On
IRQ-STATUS-RAW every flag written back as 1 is cleared (log 9). That MODIFY is a primitive of HOST's side is log 12, its
two steps are log 14, and that its two requests run where they are none of the twelve (R115 reads "refuse") is
log 30. -/
def Obligations.ModifyIssuesReadThenWrite : Prop :=
  ∀ (s : State) (r : CtrlReg) (mask value : Word), s.op = .none →
    ∃ (a t b u : State) (new : Word),
      exec (.read r.offset) s = .next a ∧ exec (.modify r.offset mask value) s = .next t ∧
      t = { a with modifying := some ⟨r, new⟩ } ∧
      step t = .next u ∧ exec (.write r.offset new) b = .next u ∧
      b = { t with modifying := none, reqs := b.reqs,
                   ctrl := { t.ctrl with irqStatusRaw := b.ctrl.irqStatusRaw, resetStatus := b.ctrl.resetStatus } } ∧
      u.trace = s.trace ++ [.read r.offset s.answer, .write r.offset new] ∧
      (∀ k < 32, new.getLsbD k = if mask.getLsbD k then value.getLsbD k else s.answer.getLsbD k) ∧
      (r = .irqStatusRaw → ∀ k, k = 4 ∨ k = 8 ∨ k = 12 → new.getLsbD k = true →
        u.ctrl.irqStatusRaw.getLsbD k = false)

/-- R52, R115, R134: an offset that is none of the eleven has no meaning; it is refused, never a fault. -/
def Obligations.UnmappedOffsetRefused : Prop :=
  ∀ (s : State) (off : Byte) (v mask value : Word), (∀ r : CtrlReg, r.offset ≠ off) →
    exec (.read off) s = .refused .unmappedOffset ∧ exec (.write off v) s = .refused .unmappedOffset ∧
    exec (.modify off mask value) s = .refused .unmappedOffset

/-- R106, R135 (log 12): between operations each of the twelve requests is the primitive of the same request: the
instruction its words decode to does what READ or WRITE does. -/
def Obligations.IdleRequestIsThePrimitive : Prop :=
  ∀ (s : State) (r : CtrlReg), s.op = .none →
    (∀ v, exec (decodeWrite r.offset v) s = exec (.write r.offset v) s) ∧
    exec (decodeRead r.offset) s = exec (.read r.offset) s

/-- R268, R273, R115 (log 12): while an operation runs, a request that is not the one SEQ emits at its control position
is refused: no competing access, no other order. -/
def Obligations.CompetingRequestRefused : Prop :=
  ∀ (s : State) (i : Instr) (w : RbWord), s.op ≠ .none → isSequencerRequest i = true → encode i = .rb w →
    s.request.map Request.word ≠ some w → exec i s = .refused .competingAccess

/-- R135, R203, R205, R268 (log 12): during an operation a primitive on any of the eleven registers is refused, and a
table entry is taken nowhere but in the table loop with entries left. -/
def Obligations.OutOfPlaceRefused : Prop :=
  ∀ (s : State) (r : CtrlReg) (v mask value : Word) (reg val : Byte),
    (s.op ≠ .none → exec (.read r.offset) s = .refused .competingAccess ∧
      exec (.write r.offset v) s = .refused .competingAccess ∧
      exec (.modify r.offset mask value) s = .refused .competingAccess) ∧
    (¬ (s.op = .runtable ∧ s.pc = .u0 ∧ s.ci < s.tlen) → exec (.regwr reg val) s = .refused .notAtTableLoop)

/-- R101, R103, R133 (log 23): of the words HOST presents at idle, HC code 00 asks for nothing and is taken; a read that
carries data and a pair that is not a read without data and a write, of one offset, are refused by name. -/
def Obligations.WordsWithoutAnInstruction : Prop :=
  ∀ (s : State) (e : Encoded) (rest : List Encoded), s.op = .none → s.modifying = none →
    s.hostIn = e :: rest →
    (∀ r, e = .hc 0 r → step s = .next { s with hostIn := rest }) ∧
    (∀ w : RbWord, e = .rb w → w.getLsbD 40 = false → w.extractLsb' 0 32 ≠ 0 →
      step s = .refused (.undecodable .readWithData)) ∧
    (∀ (a b : RbWord) (m : Word), e = .pair a b m → ¬ isModifyPair a b →
      step s = .refused (.undecodable .notAModifyPair))

/-! ## Reset and addresses -/

/-- R59, R261: after power-on reset the machine is idle with no result, not configured, with nothing recorded (the empty
trace and frame list are the model's: log 19), and it stays so while HOST presents nothing. -/
def Obligations.ResetIsIdle : Prop :=
  State.reset.op = .none ∧ State.reset.pc = .u0 ∧ State.reset.res = .none ∧ State.reset.cfgd = false ∧
  State.reset.pk = 0 ∧ State.reset.cs = 0 ∧ State.reset.modifying = none ∧
  State.reset.trace = [] ∧ State.reset.frames = [] ∧
  ∀ k, runFor k State.reset = .next State.reset

/-- R79, R15: the byte address of every access is a multiple of 4, whatever I2C_BASE is. -/
def Obligations.EveryAccessIsAligned : Prop :=
  ∀ (p : Params) (r : CtrlReg), busAddr p r.offset % 4 = 0 ∧ busAddr p r.offset = p.i2cBase + r.offset.toNat

/-! ## The invariant -/

/-- R59: the invariant holds after reset. -/
def Obligations.ResetMeetsTheInvariant : Prop := State.reset.Inv

/-- R22, R25, R28, R54, R56, R141, R148, R166, R182, R191, R203, R205: every step keeps the invariant; with it, the
controller's counter reaches zero exactly when the payload is exhausted. Its clauses about CONTROL, the frame and the
bytes handed over rest on log 11, the one about the data register on log 28, the one about the threshold on log 29, and
that each write keeps what the others set up on log 31. -/
def Obligations.StepKeepsTheInvariant : Prop :=
  ∀ s t : State, s.Inv → step s = .next t → t.Inv

/-- R183, R280, U-list ("No behaviour is treated as stuck"): while an operation runs the machine always has a next
step: no fault, no refusal. -/
def Obligations.RunningMachineAlwaysSteps : Prop :=
  ∀ s : State, s.Inv → s.op ≠ .none → ∃ t : State, step s = .next t

/-! ## Whole-machine rules -/

/-- R104, R52, R115: whatever the state, a request SEQ emits is one of the twelve, and no step of an operation adds a
violation to the trace; the check of a trace names as violations exactly the requests that are none of the twelve, READ
and WRITE presented by HOST between operations among them (log 30). -/
def Obligations.EmittedRequestIsOneOfTwelve : Prop :=
  (∀ (s : State) (r : Request), s.request = some r →
    ∃ i, decode (.rb r.word) = .ok i ∧ isSequencerRequest i = true) ∧
  (∀ s t : State, s.op ≠ .none → step s = .next t → t.traceConforms = s.traceConforms) ∧
  (∀ (off : Byte) (answer : Word), (Event.read off answer).isViolation = !isSequencerRequest (decodeRead off)) ∧
  (∀ (off : Byte) (v : Word), (Event.write off v).isViolation = !isSequencerRequest (decodeWrite off v))

/-- R163, R273: while an operation runs transactions, the micro-pc moves only along the edges of the transition table. -/
def Obligations.MicroPcFollowsTheTransitionTable : Prop :=
  ∀ s t : State, s.Inv → (s.op = .xfer ∨ s.op = .runtable) → step s = .next t → pcEdge s.pc t.pc = true

/-- R167: a transaction starts only from u0, and u0 is reached only through completion or a timeout. -/
def Obligations.TransactionsNeverOverlap : Prop :=
  ∀ s t : State, s.Inv → step s = .next t →
    (t.pc = .u1 → s.pc = .u0) ∧
    (t.pc = .u0 → s.pc ≠ .u0 →
      t.frames = s.frames ++ [.frame s.sa s.pay] ∨ ∃ p, s.pc.poll? = some p ∧ t.res = .timeout p.kind)

/-- R10, R80, R81, R85: a step appends at most one event and takes none away. -/
def Obligations.StepAppendsAtMostOneEvent : Prop :=
  ∀ s t : State, step s = .next t → ∃ es, t.trace = s.trace ++ es ∧ es.length ≤ 1

/-- R75, R161, R169, R236: the frame list changes only by the frame at u13 or by Unknown at u9 or u13. -/
def Obligations.FrameListGrowsOnlyAtTheEnd : Prop :=
  ∀ s t : State, step s = .next t →
    t.frames = s.frames ∨
    (s.pc = .u13 ∧ t.frames = s.frames ++ [.frame s.sa s.pay]) ∨
    ((s.pc = .u9 ∨ s.pc = .u13) ∧ t.frames = s.frames ++ [.unknown s.sa])

/-- R13, R74: no step changes a parameter. -/
def Obligations.ParametersNeverChange : Prop :=
  ∀ s t : State, step s = .next t → t.par = s.par

/-- R21, R26, R209, R23, R27: during a RUNTABLE the table, its length and the slave address stay; during an XFER the slave
address, the payload and the count stay; during a CFGBUS its three values stay. -/
def Obligations.OperandsStayDuringAnOperation : Prop :=
  ∀ s t : State, step s = .next t →
    (s.op = .runtable → t.tbl = s.tbl ∧ t.tlen = s.tlen ∧ t.sa = s.sa) ∧
    (s.op = .xfer → t.sa = s.sa ∧ t.pay = s.pay ∧ t.cnt = s.cnt) ∧
    (s.op = .cfgbus → t.cfg = s.cfg)

/-- R148, R49, R50, R51: a transaction never changes the bit-rate registers, its soft reset included (R57, D22: the
spec's own assumption; log 7), nor do its other writes (log 31). -/
def Obligations.TransactionKeepsTheBitRate : Prop :=
  ∀ s t : State, (s.op = .xfer ∨ s.op = .runtable) → step s = .next t →
    t.ctrl.prescale = s.ctrl.prescale ∧ t.ctrl.clockLow = s.ctrl.clockLow ∧ t.ctrl.clockHigh = s.ctrl.clockHigh

/-- R29, R240: the fault record's index changes only when a timeout is taken, to the entry's index for a RUNTABLE and to
0 for an XFER, and the result of an operation stays until a host operation is accepted. -/
def Obligations.FaultRecordChangesOnlyAtATimeout : Prop :=
  ∀ s t : State, step s = .next t →
    (t.fidx ≠ s.fidx → (∃ kind, t.res = .timeout kind) ∧
      (s.op = .runtable ∧ t.fidx = s.ci ∨ s.op = .xfer ∧ t.fidx = 0)) ∧
    (s.op = .none → t.res ≠ s.res → ∃ e i, s.hostIn.head? = some e ∧ decode e = .ok i ∧ exec i s.consume = .next t ∧
      ((∃ a b c, i = .cfgbus a b c) ∨ (∃ a b c, i = .xfer a b c) ∨ (∃ a b c, i = .runtable a b c)))

/-- R181, R39, R86: of a poll's answer only the tested bit influences the sequencer: two answers that agree in it lead
to the same sequencer state, inputs and frames. -/
def Obligations.OnlyTheTestedBitMatters : Prop :=
  ∀ (s : State) (p : PollSpec) (v w : Word) (rest : List Word) (t u : State),
    s.inTransaction s.pc → s.pc.poll? = some p → v.getLsbD p.bit = w.getLsbD p.bit →
    step { s with answers := v :: rest } = .next t → step { s with answers := w :: rest } = .next u →
    u = { t with trace := u.trace, ctrl := u.ctrl }

/-- R32, R60, R168, R210: what SEQ does next depends on its control position, its operands and the answers, never on
what the controller holds, on what was recorded, or on the last result: two machines alike in the former append the
same events and stay alike, and stop alike. -/
def Obligations.ControllerContentsNeverDecide : Prop :=
  ∀ s u : State, s.SameControl u →
    (∀ t, step s = .next t → ∃ (w : State) (es : List Event), step u = .next w ∧ t.SameControl w ∧
      t.trace = s.trace ++ es ∧ w.trace = u.trace ++ es) ∧
    (∀ f, step s = .fault f → step u = .fault f) ∧ (∀ r, step s = .refused r → step u = .refused r)

/-! ## Runs -/

/-- R162, R166, R191, R161: a whole transaction whose polls all pass, each after any number of failed reads inside its
budget, makes exactly the events of R162, appends its frame, and takes no further answer; an XFER is then complete with
OK. -/
def Obligations.TransactionMakesExactlyItsEvents : Prop :=
  ∀ (s : State) (bytes : List (Byte × PollAnswers)) (rst bus done : PollAnswers) (rest : List Word),
    s.inTransaction .u1 → s.CountInv → s.pay = bytes.map Prod.fst →
    TransactionPasses s.par bytes rst bus done →
    s.answers = transactionAnswers bytes rst bus done ++ rest →
    ∃ t : State, runFor (transactionSteps bytes rst bus done) s = .next t ∧
      t.trace = s.trace ++ transactionEvents s.par s.sa bytes rst bus done ∧
      t.frames = s.frames ++ [.frame s.sa s.pay] ∧ t.pc = .u0 ∧ t.answers = rest ∧ t.bi = s.cnt ∧
      (s.op = .xfer → t.op = .none ∧ t.res = .ok) ∧ (s.op = .runtable → t.ci = s.ci + 1)

/-- R203, R204, R205, R206: a RUNTABLE whose polls all pass runs one transaction per entry, in order, none skipped and
none twice, and then completes with OK. -/
def Obligations.TableRunsEveryEntryInOrder : Prop :=
  ∀ (s : State) (runs : List EntryRun) (rest : List Word),
    s.op = .runtable → s.pc = .u0 → s.ci = 0 → runs ≠ [] → s.tbl = runs.map EntryRun.entry →
    s.tlen = runs.length →
    (∀ e ∈ runs, TransactionPasses s.par e.bytes e.rst e.bus e.done) →
    s.answers = runs.flatMap (fun e => transactionAnswers e.bytes e.rst e.bus e.done) ++ rest →
    ∃ t : State, runFor (runs.map fun e => 1 + transactionSteps e.bytes e.rst e.bus e.done).sum s = .next t ∧
      t.trace = s.trace ++ runs.flatMap (fun e => transactionEvents s.par s.sa e.bytes e.rst e.bus e.done) ∧
      t.frames = s.frames ++ runs.map (fun e => BusFrame.frame s.sa [e.entry.reg, e.entry.val]) ∧
      t.op = .none ∧ t.res = .ok ∧ t.ci = runs.length ∧ t.answers = rest

/-- R140, R145: CFGBUS makes exactly three writes, in order, and then has completed. That each keeps what the others
wrote is log 31. -/
def Obligations.CfgbusMakesThreeWrites : Prop :=
  ∀ (s : State) (psc scll sclh : Word) (r : HcOperands) (rest : List Encoded),
    s.op = .none → s.modifying = none → r.psc = psc → r.scll = scll → r.sclh = sclh → s.hostIn = .hc 1 r :: rest →
    ∃ t : State, runFor 4 s = .next t ∧
      t.trace = s.trace ++ [.write 0xB0 psc, .write 0xB4 scll, .write 0xB8 sclh] ∧
      t.ctrl.prescale = psc ∧ t.ctrl.clockLow = scll ∧ t.ctrl.clockHigh = sclh ∧
      t.cfg = ⟨psc, scll, sclh⟩ ∧ t.cfgd = true ∧ t.res = .ok ∧ t.op = .none ∧ t.hostIn = rest ∧ t.frames = s.frames

/-- R182, R180, R236, R238: with POLL_BOUND = B a poll whose B answers all fail makes exactly B reads, then takes its
timeout: the operation is over, with the kind and the entry's index recorded and no further request. -/
def Obligations.PollTimesOutAfterItsBound : Prop :=
  ∀ (s : State) (p : PollSpec) (b : { b : Nat // 1 ≤ b }) (vs rest : List Word),
    s.inTransaction s.pc → s.pc.poll? = some p → s.pk = 0 → s.par.pollBound = some b → vs.length = b.val →
    (∀ v ∈ vs, v.getLsbD p.bit ≠ p.want) → s.answers = vs ++ rest →
    ∃ t : State, runFor b.val s = .next t ∧
      t = { s with trace := s.trace ++ vs.map (Event.read p.reg.offset), answers := rest, reqs := t.reqs, ctrl := t.ctrl,
                   pk := b.val, res := .timeout p.kind, pc := .u0, op := .none,
                   fidx := if s.op = .runtable then s.ci else 0,
                   frames := if s.pc = .u9 ∨ s.pc = .u13 then s.frames ++ [.unknown s.sa] else s.frames }

/-- R183, R242: with POLL_BOUND = none a poll whose answers fail goes on reading for ever: after any number of failed
reads it still stands at its micro-step, and no timeout is taken. -/
def Obligations.UnboundedPollNeverPasses : Prop :=
  ∀ (s : State) (p : PollSpec) (vs rest : List Word),
    s.inTransaction s.pc → s.pc.poll? = some p → s.par.pollBound = none →
    (∀ v ∈ vs, v.getLsbD p.bit ≠ p.want) → s.answers = vs ++ rest →
    ∃ t : State, runFor vs.length s = .next t ∧
      t = { s with trace := s.trace ++ vs.map (Event.read p.reg.offset), answers := rest, reqs := t.reqs, ctrl := t.ctrl,
                   pk := s.pk + vs.length }

/-! ## The servo adjunct -/

/-- R217, R221: the three reference values, and every other angle rejected. -/
def Obligations.ServoReferenceAngles : Prop :=
  angleToOffCount 0 = some 0x132 ∧ angleToOffCount 90 = some 0x199 ∧ angleToOffCount (-90) = some 0x0CC ∧
  ∀ angle : Int, angle ≠ 0 → angle ≠ 90 → angle ≠ -90 → angleToOffCount angle = none

/-- R218, R220: where it is defined the encoder is monotonic in the angle and stays within 12 bits. -/
def Obligations.ServoMonotonicAndTwelveBits : Prop :=
  ∀ (a b : Int) (x y : BitVec 16), angleToOffCount a = some x → angleToOffCount b = some y →
    x.toNat ≤ 4095 ∧ (a < b → x.toNat ≤ y.toNat)

/-- R219, R77: the table of an angle sets the on count to 0 and then the off count, low byte before high byte, and the
two bytes of the off count make it up. -/
def Obligations.ServoTableLowByteFirst : Prop :=
  ∀ (p : Params) (angle : Int) (off : BitVec 16), angleToOffCount angle = some off →
    ∃ lo hi : Byte, servoTable p angle = some [⟨p.onL, 0⟩, ⟨p.onH, 0⟩, ⟨p.offL, lo⟩, ⟨p.offH, hi⟩] ∧
      off.toNat = hi.toNat * 256 + lo.toNat
end

