-- ==== Sys2Proof/Laws/Decode.lean ====
section
/-! SUPPORT. The fields of a packed request, and how each of the twelve requests and the primitives decode (R101, R104,
R106). -/

namespace Sys2Proof

@[simp] theorem rbPack_isWrite (w : Bool) (off : Byte) (data : Word) : (rbPack w off data).isWrite = w := by
  cases w <;> simp [rbPack, RbWord.isWrite]

@[simp] theorem rbPack_off (w : Bool) (off : Byte) (data : Word) : (rbPack w off data).off = off := by
  apply BitVec.eq_of_getLsbD_eq
  intro i hi
  have h41 : 32 + i < 41 := by omega
  have h40 : 32 + i < 40 := by omega
  simp [rbPack, RbWord.off, hi, h41, h40]

@[simp] theorem rbPack_dataField (w : Bool) (off : Byte) (data : Word) :
    (rbPack w off data).dataField = data := by
  apply BitVec.eq_of_getLsbD_eq
  intro i hi
  have h41 : i < 41 := by omega
  have h40 : i < 40 := by omega
  simp [rbPack, RbWord.dataField, hi, h41, h40]

/-- A request is the packing of its three fields (R101). -/
theorem rbPack_fields (w : RbWord) : rbPack w.isWrite w.off w.dataField = w := by
  apply BitVec.eq_of_getLsbD_eq
  intro i hi
  by_cases h32 : i < 32
  · have h40 : i < 40 := by omega
    simp [rbPack, RbWord.dataField, RbWord.off, BitVec.getLsbD_extractLsb', h32, h40, hi]
  · by_cases h40 : i < 40
    · have e : 32 + (i - 32) = i := by omega
      simp [rbPack, RbWord.dataField, RbWord.off, BitVec.getLsbD_extractLsb', h32, h40, e, hi]
      omega
    · have : i = 40 := by omega
      subst this
      simp [rbPack, RbWord.isWrite, RbWord.off, RbWord.dataField]

@[simp] theorem decode_rbPack_read (off : Byte) : decode (.rb (rbPack false off 0)) = .ok (decodeRead off) := by
  simp [decode, decodeRb]

@[simp] theorem decode_rbPack_write (off : Byte) (data : Word) :
    decode (.rb (rbPack true off data)) = .ok (decodeWrite off data) := by
  simp [decode, decodeRb]

/-- The register at a register's own offset is that register. -/
@[simp] theorem CtrlReg.ofOffset?_offset (r : CtrlReg) : CtrlReg.ofOffset? r.offset = some r := by
  cases r <;> rfl

/-- A register found at an offset has that offset. -/
theorem CtrlReg.offset_of_ofOffset? {off : Byte} {r : CtrlReg} (h : CtrlReg.ofOffset? off = some r) :
    r.offset = off := by
  have := List.find?_some h
  simpa using this

/-! ## The narrow fields of a data word -/

/-- The bits above a zero-extended value are zero (R107 to R109, R116). -/
theorem high_setWidth {n m : Nat} (v : BitVec n) : BitVec.extractLsb' n m (v.setWidth 32) = 0 := by
  apply BitVec.eq_of_getLsbD_eq
  intro i hi
  simp [hi]

/-- The low bits of a zero-extended value are the value. -/
theorem low_setWidth {n : Nat} (v : BitVec n) (h : n ≤ 32) : BitVec.extractLsb' 0 n (v.setWidth 32) = v := by
  apply BitVec.eq_of_getLsbD_eq
  intro i hi
  have : i < 32 := by omega
  simp [hi, this]

/-- START and STOP are both 1 in an arm value (R110). -/
theorem low_armBits (e : BitVec 30) : BitVec.extractLsb' 0 2 ((e.setWidth 32 <<< 2) ||| (3 : Word)) = 3 := by
  apply BitVec.eq_of_getLsbD_eq
  intro i hi
  have : i = 0 ∨ i = 1 := by omega
  rcases this with rfl | rfl <;> simp

/-- The other bits of an arm value are CON_ENABLE's (R110). -/
theorem high_armBits (e : BitVec 30) : BitVec.extractLsb' 2 30 ((e.setWidth 32 <<< 2) ||| (3 : Word)) = e := by
  apply BitVec.eq_of_getLsbD_eq
  intro i hi
  have h32 : 2 + i < 32 := by omega
  have h3 : (3#32)[2 + i] = false := by
    have h4 : 2 ^ 2 ≤ 2 ^ (2 + i) := Nat.pow_le_pow_right (by decide) (by omega)
    rw [← BitVec.getLsbD_eq_getElem]
    exact Nat.testBit_lt_two_pow (show 3 < 2 ^ (2 + i) by omega)
  have h1 : ¬ 2 + i ≤ 1 := by omega
  simp [hi, h32, h3, h1]

/-! ## The twelve requests (R104) -/

theorem decodeWrite_srst : decodeWrite 0x10 0x2 = .srst := by decide
theorem decodeWrite_clrXrdy : decodeWrite 0x24 0x10 = .clrXrdy := by decide
theorem decodeWrite_wrBuf : decodeWrite 0x94 0x41 = .wrBuf := by decide
theorem decodeRead_irq : decodeRead 0x24 = .rdIrqraw := by decide
theorem decodeRead_syss : decodeRead 0x90 = .rdSyss := by decide

theorem decodeWrite_wrCnt (n : BitVec 16) : decodeWrite 0x98 (n.setWidth 32) = .wrCnt n := by
  simp only [decodeWrite, high_setWidth, low_setWidth _ (show 16 ≤ 32 by decide)]
  simp

theorem decodeWrite_wrData (b : Byte) : decodeWrite 0x9C (b.setWidth 32) = .wrData b := by
  simp only [decodeWrite, high_setWidth, low_setWidth _ (show 8 ≤ 32 by decide)]
  simp

theorem decodeWrite_wrCon (e : BitVec 30) : decodeWrite 0xA4 ((e.setWidth 32 <<< 2) ||| 3) = .wrCon e := by
  simp only [decodeWrite, low_armBits, high_armBits]
  simp

theorem decodeWrite_wrSa (a : BitVec 7) : decodeWrite 0xAC (a.setWidth 32) = .wrSa a := by
  simp only [decodeWrite, high_setWidth, low_setWidth _ (show 7 ≤ 32 by decide)]
  simp

@[simp] theorem decodeWrite_wrPsc (v : Word) : decodeWrite 0xB0 v = .wrPsc v := by simp [decodeWrite]
@[simp] theorem decodeWrite_wrScll (v : Word) : decodeWrite 0xB4 v = .wrScll v := by simp [decodeWrite]
@[simp] theorem decodeWrite_wrSclh (v : Word) : decodeWrite 0xB8 v = .wrSclh v := by simp [decodeWrite]

/-! ## From a request back to its words (R106) -/

/-- The upper bits of a data word are zero when its value fits the lower ones (R116). -/
theorem extract_high_eq_zero_iff {n m : Nat} (x : Word) (h : n + m = 32) :
    BitVec.extractLsb' n m x = 0 ↔ x.toNat < 2 ^ n := by
  have hx := x.isLt
  have e : 2 ^ 32 = 2 ^ n * 2 ^ m := by rw [← Nat.pow_add, h]
  have hp := Nat.two_pow_pos n
  have hlt : x.toNat / 2 ^ n < 2 ^ m := by rw [Nat.div_lt_iff_lt_mul hp, Nat.mul_comm, ← e]; exact hx
  rw [← BitVec.toNat_inj, BitVec.extractLsb'_toNat, Nat.shiftRight_eq_div_pow, Nat.mod_eq_of_lt hlt]
  show x.toNat / 2 ^ n = 0 ↔ _
  rw [Nat.div_eq_zero_iff]
  simp

/-- A data word whose upper bits are zero is its lower ones, zero-extended. -/
theorem setWidth_extract_low {n m : Nat} (x : Word) (h : n + m = 32) (hx : BitVec.extractLsb' n m x = 0) :
    (BitVec.extractLsb' 0 n x).setWidth 32 = x := by
  rw [extract_high_eq_zero_iff x h] at hx
  rw [← BitVec.toNat_inj, BitVec.toNat_setWidth, BitVec.extractLsb'_toNat, Nat.shiftRight_zero, Nat.mod_eq_of_lt hx]
  exact Nat.mod_eq_of_lt x.isLt

/-- A CONTROL word with START and STOP both 1 is the arm value of its other bits (R110). -/
theorem arm_extract (x : Word) (hx : BitVec.extractLsb' 0 2 x = 3) :
    ((BitVec.extractLsb' 2 30 x).setWidth 32 <<< 2) ||| 3 = x := by
  apply BitVec.eq_of_getLsbD_eq
  intro i hi
  have h0 : x.getLsbD 0 = true := by simpa using congrArg (fun v => v.getLsbD 0) hx
  have h1 : x.getLsbD 1 = true := by simpa using congrArg (fun v => v.getLsbD 1) hx
  match i, hi with
  | 0, _ => simpa using h0.symm
  | 1, _ => simpa using h1.symm
  | k + 2, hi =>
    have h4 : (3#32)[k + 2] = false := by
      have : 2 ^ 2 ≤ 2 ^ (k + 2) := Nat.pow_le_pow_right (by decide) (by omega)
      rw [← BitVec.getLsbD_eq_getElem]
      exact Nat.testBit_lt_two_pow (show 3 < 2 ^ (k + 2) by omega)
    have e : 2 + k = k + 2 := by omega
    have l : k < 30 := by omega
    simp [hi, h4, e, l]

/-- The instruction a write request decodes to is encoded as that request. -/
theorem encode_decodeWrite (off : Byte) (data : Word) : encode (decodeWrite off data) = .rb (rbPack true off data) := by
  unfold decodeWrite
  split; · rename_i h; rw [h.1, h.2]; rfl
  split; · rename_i h; rw [h.1, h.2]; rfl
  split; · rename_i h; rw [h.1, h.2]; rfl
  split
  · rename_i h; rw [h.1]
    exact congrArg (fun d => Encoded.rb (rbPack true 0x98 d)) (setWidth_extract_low data rfl h.2)
  split
  · rename_i h; rw [h.1]
    exact congrArg (fun d => Encoded.rb (rbPack true 0x9C d)) (setWidth_extract_low data rfl h.2)
  split
  · rename_i h; rw [h.1]
    exact congrArg (fun d => Encoded.rb (rbPack true 0xA4 d)) (arm_extract data h.2)
  split
  · rename_i h; rw [h.1]
    exact congrArg (fun d => Encoded.rb (rbPack true 0xAC d)) (setWidth_extract_low data rfl h.2)
  split; · rename_i h; rw [h]; rfl
  split; · rename_i h; rw [h]; rfl
  split; · rename_i h; rw [h]; rfl
  rfl

/-- The instruction a read request decodes to is encoded as that request. -/
theorem encode_decodeRead (off : Byte) : encode (decodeRead off) = .rb (rbPack false off 0) := by
  unfold decodeRead
  split; · rename_i h; rw [h]; rfl
  split; · rename_i h; rw [h]; rfl
  rfl
/-! ## Table entries (R102) -/

@[simp] theorem CommandEntry.ofWord_cePack (reg val : Byte) :
    CommandEntry.ofWord (cePack reg val) = { reg := reg, val := val } := by
  have h : BitVec.extractLsb' 8 8 (cePack reg val) = reg := by
    apply BitVec.eq_of_getLsbD_eq
    intro i hi
    have : 8 + i < 16 := by omega
    simp [cePack, hi, this]
  have h' : BitVec.extractLsb' 0 8 (cePack reg val) = val := by
    apply BitVec.eq_of_getLsbD_eq
    intro i hi
    have : i < 16 := by omega
    simp [cePack, hi, this]
  simp [CommandEntry.ofWord, h, h']

@[simp] theorem CommandEntry.ofWord_word (e : CommandEntry) : CommandEntry.ofWord e.word = e := by
  simp [CommandEntry.word]

end Sys2Proof
end

