-- ==== Sys2Proof/Laws/State.lean ====
section
/-! SUPPORT. One lemma per field per update of State and Controller: what each shared operation leaves in each field.
All hold by unfolding; later proofs cite them and unfold no record update. -/

namespace Sys2Proof.Machine

/-! ## One read request (R14, R131) -/

@[simp] theorem State.regRead_op (r : CtrlReg) (s : State) : (s.regRead r).op = s.op := rfl
@[simp] theorem State.regRead_sa (r : CtrlReg) (s : State) : (s.regRead r).sa = s.sa := rfl
@[simp] theorem State.regRead_cnt (r : CtrlReg) (s : State) : (s.regRead r).cnt = s.cnt := rfl
@[simp] theorem State.regRead_pay (r : CtrlReg) (s : State) : (s.regRead r).pay = s.pay := rfl
@[simp] theorem State.regRead_bi (r : CtrlReg) (s : State) : (s.regRead r).bi = s.bi := rfl
@[simp] theorem State.regRead_tbl (r : CtrlReg) (s : State) : (s.regRead r).tbl = s.tbl := rfl
@[simp] theorem State.regRead_tlen (r : CtrlReg) (s : State) : (s.regRead r).tlen = s.tlen := rfl
@[simp] theorem State.regRead_ci (r : CtrlReg) (s : State) : (s.regRead r).ci = s.ci := rfl
@[simp] theorem State.regRead_cfg (r : CtrlReg) (s : State) : (s.regRead r).cfg = s.cfg := rfl
@[simp] theorem State.regRead_cfgd (r : CtrlReg) (s : State) : (s.regRead r).cfgd = s.cfgd := rfl
@[simp] theorem State.regRead_cs (r : CtrlReg) (s : State) : (s.regRead r).cs = s.cs := rfl
@[simp] theorem State.regRead_pk (r : CtrlReg) (s : State) : (s.regRead r).pk = s.pk := rfl
@[simp] theorem State.regRead_res (r : CtrlReg) (s : State) : (s.regRead r).res = s.res := rfl
@[simp] theorem State.regRead_fidx (r : CtrlReg) (s : State) : (s.regRead r).fidx = s.fidx := rfl
@[simp] theorem State.regRead_pc (r : CtrlReg) (s : State) : (s.regRead r).pc = s.pc := rfl
@[simp] theorem State.regRead_ctrl (r : CtrlReg) (s : State) : (s.regRead r).ctrl = s.ctrl.observe r s.answer := rfl
@[simp] theorem State.regRead_trace (r : CtrlReg) (s : State) : (s.regRead r).trace = s.trace ++ [.read r.offset s.answer] := rfl
@[simp] theorem State.regRead_frames (r : CtrlReg) (s : State) : (s.regRead r).frames = s.frames := rfl
@[simp] theorem State.regRead_par (r : CtrlReg) (s : State) : (s.regRead r).par = s.par := rfl
@[simp] theorem State.regRead_modifying (r : CtrlReg) (s : State) : (s.regRead r).modifying = s.modifying := rfl
@[simp] theorem State.regRead_hostIn (r : CtrlReg) (s : State) : (s.regRead r).hostIn = s.hostIn := rfl
@[simp] theorem State.regRead_answers (r : CtrlReg) (s : State) : (s.regRead r).answers = s.answers.tail := rfl
@[simp] theorem State.regRead_reqs (r : CtrlReg) (s : State) : (s.regRead r).reqs = s.reqs + 1 := rfl

/-! ## One write request (R14, R132) -/

@[simp] theorem State.regWrite_op (r : CtrlReg) (v : Word) (s : State) : (s.regWrite r v).op = s.op := rfl
@[simp] theorem State.regWrite_sa (r : CtrlReg) (v : Word) (s : State) : (s.regWrite r v).sa = s.sa := rfl
@[simp] theorem State.regWrite_cnt (r : CtrlReg) (v : Word) (s : State) : (s.regWrite r v).cnt = s.cnt := rfl
@[simp] theorem State.regWrite_pay (r : CtrlReg) (v : Word) (s : State) : (s.regWrite r v).pay = s.pay := rfl
@[simp] theorem State.regWrite_bi (r : CtrlReg) (v : Word) (s : State) : (s.regWrite r v).bi = s.bi := rfl
@[simp] theorem State.regWrite_tbl (r : CtrlReg) (v : Word) (s : State) : (s.regWrite r v).tbl = s.tbl := rfl
@[simp] theorem State.regWrite_tlen (r : CtrlReg) (v : Word) (s : State) : (s.regWrite r v).tlen = s.tlen := rfl
@[simp] theorem State.regWrite_ci (r : CtrlReg) (v : Word) (s : State) : (s.regWrite r v).ci = s.ci := rfl
@[simp] theorem State.regWrite_cfg (r : CtrlReg) (v : Word) (s : State) : (s.regWrite r v).cfg = s.cfg := rfl
@[simp] theorem State.regWrite_cfgd (r : CtrlReg) (v : Word) (s : State) : (s.regWrite r v).cfgd = s.cfgd := rfl
@[simp] theorem State.regWrite_cs (r : CtrlReg) (v : Word) (s : State) : (s.regWrite r v).cs = s.cs := rfl
@[simp] theorem State.regWrite_pk (r : CtrlReg) (v : Word) (s : State) : (s.regWrite r v).pk = s.pk := rfl
@[simp] theorem State.regWrite_res (r : CtrlReg) (v : Word) (s : State) : (s.regWrite r v).res = s.res := rfl
@[simp] theorem State.regWrite_fidx (r : CtrlReg) (v : Word) (s : State) : (s.regWrite r v).fidx = s.fidx := rfl
@[simp] theorem State.regWrite_pc (r : CtrlReg) (v : Word) (s : State) : (s.regWrite r v).pc = s.pc := rfl
@[simp] theorem State.regWrite_ctrl (r : CtrlReg) (v : Word) (s : State) : (s.regWrite r v).ctrl = s.ctrl.write s.reqs r v := rfl
@[simp] theorem State.regWrite_trace (r : CtrlReg) (v : Word) (s : State) : (s.regWrite r v).trace = s.trace ++ [.write r.offset v] := rfl
@[simp] theorem State.regWrite_frames (r : CtrlReg) (v : Word) (s : State) : (s.regWrite r v).frames = s.frames := rfl
@[simp] theorem State.regWrite_par (r : CtrlReg) (v : Word) (s : State) : (s.regWrite r v).par = s.par := rfl
@[simp] theorem State.regWrite_modifying (r : CtrlReg) (v : Word) (s : State) : (s.regWrite r v).modifying = s.modifying := rfl
@[simp] theorem State.regWrite_hostIn (r : CtrlReg) (v : Word) (s : State) : (s.regWrite r v).hostIn = s.hostIn := rfl
@[simp] theorem State.regWrite_answers (r : CtrlReg) (v : Word) (s : State) : (s.regWrite r v).answers = s.answers := rfl
@[simp] theorem State.regWrite_reqs (r : CtrlReg) (v : Word) (s : State) : (s.regWrite r v).reqs = s.reqs + 1 := rfl

/-! ## The settling delay (R184) -/

@[simp] theorem State.settle_op (s : State) : s.settle.op = s.op := rfl
@[simp] theorem State.settle_sa (s : State) : s.settle.sa = s.sa := rfl
@[simp] theorem State.settle_cnt (s : State) : s.settle.cnt = s.cnt := rfl
@[simp] theorem State.settle_pay (s : State) : s.settle.pay = s.pay := rfl
@[simp] theorem State.settle_bi (s : State) : s.settle.bi = s.bi := rfl
@[simp] theorem State.settle_tbl (s : State) : s.settle.tbl = s.tbl := rfl
@[simp] theorem State.settle_tlen (s : State) : s.settle.tlen = s.tlen := rfl
@[simp] theorem State.settle_ci (s : State) : s.settle.ci = s.ci := rfl
@[simp] theorem State.settle_cfg (s : State) : s.settle.cfg = s.cfg := rfl
@[simp] theorem State.settle_cfgd (s : State) : s.settle.cfgd = s.cfgd := rfl
@[simp] theorem State.settle_cs (s : State) : s.settle.cs = s.cs := rfl
@[simp] theorem State.settle_pk (s : State) : s.settle.pk = s.pk := rfl
@[simp] theorem State.settle_res (s : State) : s.settle.res = s.res := rfl
@[simp] theorem State.settle_fidx (s : State) : s.settle.fidx = s.fidx := rfl
@[simp] theorem State.settle_pc (s : State) : s.settle.pc = s.pc := rfl
@[simp] theorem State.settle_ctrl (s : State) : s.settle.ctrl = s.ctrl := rfl
@[simp] theorem State.settle_trace (s : State) : s.settle.trace = s.trace ++ [.settle] := rfl
@[simp] theorem State.settle_frames (s : State) : s.settle.frames = s.frames := rfl
@[simp] theorem State.settle_par (s : State) : s.settle.par = s.par := rfl
@[simp] theorem State.settle_modifying (s : State) : s.settle.modifying = s.modifying := rfl
@[simp] theorem State.settle_hostIn (s : State) : s.settle.hostIn = s.hostIn := rfl
@[simp] theorem State.settle_answers (s : State) : s.settle.answers = s.answers := rfl
@[simp] theorem State.settle_reqs (s : State) : s.settle.reqs = s.reqs := rfl

/-! ## Taking a timeout (R236) -/

@[simp] theorem State.raiseTimeout_op (k : TimeoutKind) (s : State) : (s.raiseTimeout k).op = .none := rfl
@[simp] theorem State.raiseTimeout_sa (k : TimeoutKind) (s : State) : (s.raiseTimeout k).sa = s.sa := rfl
@[simp] theorem State.raiseTimeout_cnt (k : TimeoutKind) (s : State) : (s.raiseTimeout k).cnt = s.cnt := rfl
@[simp] theorem State.raiseTimeout_pay (k : TimeoutKind) (s : State) : (s.raiseTimeout k).pay = s.pay := rfl
@[simp] theorem State.raiseTimeout_bi (k : TimeoutKind) (s : State) : (s.raiseTimeout k).bi = s.bi := rfl
@[simp] theorem State.raiseTimeout_tbl (k : TimeoutKind) (s : State) : (s.raiseTimeout k).tbl = s.tbl := rfl
@[simp] theorem State.raiseTimeout_tlen (k : TimeoutKind) (s : State) : (s.raiseTimeout k).tlen = s.tlen := rfl
@[simp] theorem State.raiseTimeout_ci (k : TimeoutKind) (s : State) : (s.raiseTimeout k).ci = s.ci := rfl
@[simp] theorem State.raiseTimeout_cfg (k : TimeoutKind) (s : State) : (s.raiseTimeout k).cfg = s.cfg := rfl
@[simp] theorem State.raiseTimeout_cfgd (k : TimeoutKind) (s : State) : (s.raiseTimeout k).cfgd = s.cfgd := rfl
@[simp] theorem State.raiseTimeout_cs (k : TimeoutKind) (s : State) : (s.raiseTimeout k).cs = s.cs := rfl
@[simp] theorem State.raiseTimeout_pk (k : TimeoutKind) (s : State) : (s.raiseTimeout k).pk = s.pk := rfl
@[simp] theorem State.raiseTimeout_res (k : TimeoutKind) (s : State) : (s.raiseTimeout k).res = .timeout k := rfl
@[simp] theorem State.raiseTimeout_fidx (k : TimeoutKind) (s : State) : (s.raiseTimeout k).fidx = if s.op = .runtable then s.ci else 0 := rfl
@[simp] theorem State.raiseTimeout_pc (k : TimeoutKind) (s : State) : (s.raiseTimeout k).pc = .u0 := rfl
@[simp] theorem State.raiseTimeout_ctrl (k : TimeoutKind) (s : State) : (s.raiseTimeout k).ctrl = s.ctrl := rfl
@[simp] theorem State.raiseTimeout_trace (k : TimeoutKind) (s : State) : (s.raiseTimeout k).trace = s.trace := rfl
@[simp] theorem State.raiseTimeout_frames (k : TimeoutKind) (s : State) : (s.raiseTimeout k).frames = s.framesAfterTimeout := rfl
@[simp] theorem State.raiseTimeout_par (k : TimeoutKind) (s : State) : (s.raiseTimeout k).par = s.par := rfl
@[simp] theorem State.raiseTimeout_modifying (k : TimeoutKind) (s : State) : (s.raiseTimeout k).modifying = s.modifying := rfl
@[simp] theorem State.raiseTimeout_hostIn (k : TimeoutKind) (s : State) : (s.raiseTimeout k).hostIn = s.hostIn := rfl
@[simp] theorem State.raiseTimeout_answers (k : TimeoutKind) (s : State) : (s.raiseTimeout k).answers = s.answers := rfl
@[simp] theorem State.raiseTimeout_reqs (k : TimeoutKind) (s : State) : (s.raiseTimeout k).reqs = s.reqs := rfl

/-! ## Completion of CFGBUS (R145) -/

@[simp] theorem State.configDone_op (s : State) : s.configDone.op = .none := rfl
@[simp] theorem State.configDone_sa (s : State) : s.configDone.sa = s.sa := rfl
@[simp] theorem State.configDone_cnt (s : State) : s.configDone.cnt = s.cnt := rfl
@[simp] theorem State.configDone_pay (s : State) : s.configDone.pay = s.pay := rfl
@[simp] theorem State.configDone_bi (s : State) : s.configDone.bi = s.bi := rfl
@[simp] theorem State.configDone_tbl (s : State) : s.configDone.tbl = s.tbl := rfl
@[simp] theorem State.configDone_tlen (s : State) : s.configDone.tlen = s.tlen := rfl
@[simp] theorem State.configDone_ci (s : State) : s.configDone.ci = s.ci := rfl
@[simp] theorem State.configDone_cfg (s : State) : s.configDone.cfg = s.cfg := rfl
@[simp] theorem State.configDone_cfgd (s : State) : s.configDone.cfgd = true := rfl
@[simp] theorem State.configDone_cs (s : State) : s.configDone.cs = s.cs := rfl
@[simp] theorem State.configDone_pk (s : State) : s.configDone.pk = s.pk := rfl
@[simp] theorem State.configDone_res (s : State) : s.configDone.res = .ok := rfl
@[simp] theorem State.configDone_fidx (s : State) : s.configDone.fidx = s.fidx := rfl
@[simp] theorem State.configDone_pc (s : State) : s.configDone.pc = s.pc := rfl
@[simp] theorem State.configDone_ctrl (s : State) : s.configDone.ctrl = s.ctrl := rfl
@[simp] theorem State.configDone_trace (s : State) : s.configDone.trace = s.trace := rfl
@[simp] theorem State.configDone_frames (s : State) : s.configDone.frames = s.frames := rfl
@[simp] theorem State.configDone_par (s : State) : s.configDone.par = s.par := rfl
@[simp] theorem State.configDone_modifying (s : State) : s.configDone.modifying = s.modifying := rfl
@[simp] theorem State.configDone_hostIn (s : State) : s.configDone.hostIn = s.hostIn := rfl
@[simp] theorem State.configDone_answers (s : State) : s.configDone.answers = s.answers := rfl
@[simp] theorem State.configDone_reqs (s : State) : s.configDone.reqs = s.reqs := rfl

/-! ## The advance of the byte loop (R190) -/

@[simp] theorem State.nextByte_op (s : State) : s.nextByte.op = s.op := rfl
@[simp] theorem State.nextByte_sa (s : State) : s.nextByte.sa = s.sa := rfl
@[simp] theorem State.nextByte_cnt (s : State) : s.nextByte.cnt = s.cnt := rfl
@[simp] theorem State.nextByte_pay (s : State) : s.nextByte.pay = s.pay := rfl
@[simp] theorem State.nextByte_bi (s : State) : s.nextByte.bi = s.bi + 1 := rfl
@[simp] theorem State.nextByte_tbl (s : State) : s.nextByte.tbl = s.tbl := rfl
@[simp] theorem State.nextByte_tlen (s : State) : s.nextByte.tlen = s.tlen := rfl
@[simp] theorem State.nextByte_ci (s : State) : s.nextByte.ci = s.ci := rfl
@[simp] theorem State.nextByte_cfg (s : State) : s.nextByte.cfg = s.cfg := rfl
@[simp] theorem State.nextByte_cfgd (s : State) : s.nextByte.cfgd = s.cfgd := rfl
@[simp] theorem State.nextByte_cs (s : State) : s.nextByte.cs = s.cs := rfl
@[simp] theorem State.nextByte_pk (s : State) : s.nextByte.pk = 0 := rfl
@[simp] theorem State.nextByte_res (s : State) : s.nextByte.res = s.res := rfl
@[simp] theorem State.nextByte_fidx (s : State) : s.nextByte.fidx = s.fidx := rfl
@[simp] theorem State.nextByte_pc (s : State) : s.nextByte.pc = if (s.bi + 1).toNat < s.cnt.toNat then .u9 else .u13 := rfl
@[simp] theorem State.nextByte_ctrl (s : State) : s.nextByte.ctrl = s.ctrl := rfl
@[simp] theorem State.nextByte_trace (s : State) : s.nextByte.trace = s.trace := rfl
@[simp] theorem State.nextByte_frames (s : State) : s.nextByte.frames = s.frames := rfl
@[simp] theorem State.nextByte_par (s : State) : s.nextByte.par = s.par := rfl
@[simp] theorem State.nextByte_modifying (s : State) : s.nextByte.modifying = s.modifying := rfl
@[simp] theorem State.nextByte_hostIn (s : State) : s.nextByte.hostIn = s.hostIn := rfl
@[simp] theorem State.nextByte_answers (s : State) : s.nextByte.answers = s.answers := rfl
@[simp] theorem State.nextByte_reqs (s : State) : s.nextByte.reqs = s.reqs := rfl

/-! ## The delay of u8 (R160) -/

@[simp] theorem State.settleAfterArm_op (s : State) : s.settleAfterArm.op = s.op := rfl
@[simp] theorem State.settleAfterArm_sa (s : State) : s.settleAfterArm.sa = s.sa := rfl
@[simp] theorem State.settleAfterArm_cnt (s : State) : s.settleAfterArm.cnt = s.cnt := rfl
@[simp] theorem State.settleAfterArm_pay (s : State) : s.settleAfterArm.pay = s.pay := rfl
@[simp] theorem State.settleAfterArm_bi (s : State) : s.settleAfterArm.bi = 0 := rfl
@[simp] theorem State.settleAfterArm_tbl (s : State) : s.settleAfterArm.tbl = s.tbl := rfl
@[simp] theorem State.settleAfterArm_tlen (s : State) : s.settleAfterArm.tlen = s.tlen := rfl
@[simp] theorem State.settleAfterArm_ci (s : State) : s.settleAfterArm.ci = s.ci := rfl
@[simp] theorem State.settleAfterArm_cfg (s : State) : s.settleAfterArm.cfg = s.cfg := rfl
@[simp] theorem State.settleAfterArm_cfgd (s : State) : s.settleAfterArm.cfgd = s.cfgd := rfl
@[simp] theorem State.settleAfterArm_cs (s : State) : s.settleAfterArm.cs = s.cs := rfl
@[simp] theorem State.settleAfterArm_pk (s : State) : s.settleAfterArm.pk = 0 := rfl
@[simp] theorem State.settleAfterArm_res (s : State) : s.settleAfterArm.res = s.res := rfl
@[simp] theorem State.settleAfterArm_fidx (s : State) : s.settleAfterArm.fidx = s.fidx := rfl
@[simp] theorem State.settleAfterArm_pc (s : State) : s.settleAfterArm.pc = .u9 := rfl
@[simp] theorem State.settleAfterArm_ctrl (s : State) : s.settleAfterArm.ctrl = s.ctrl := rfl
@[simp] theorem State.settleAfterArm_trace (s : State) : s.settleAfterArm.trace = s.trace ++ [.settle] := rfl
@[simp] theorem State.settleAfterArm_frames (s : State) : s.settleAfterArm.frames = s.frames := rfl
@[simp] theorem State.settleAfterArm_par (s : State) : s.settleAfterArm.par = s.par := rfl
@[simp] theorem State.settleAfterArm_modifying (s : State) : s.settleAfterArm.modifying = s.modifying := rfl
@[simp] theorem State.settleAfterArm_hostIn (s : State) : s.settleAfterArm.hostIn = s.hostIn := rfl
@[simp] theorem State.settleAfterArm_answers (s : State) : s.settleAfterArm.answers = s.answers := rfl
@[simp] theorem State.settleAfterArm_reqs (s : State) : s.settleAfterArm.reqs = s.reqs := rfl

/-! ## The delay of u11 (R189) -/

@[simp] theorem State.settleAfterData_op (s : State) : s.settleAfterData.op = s.op := rfl
@[simp] theorem State.settleAfterData_sa (s : State) : s.settleAfterData.sa = s.sa := rfl
@[simp] theorem State.settleAfterData_cnt (s : State) : s.settleAfterData.cnt = s.cnt := rfl
@[simp] theorem State.settleAfterData_pay (s : State) : s.settleAfterData.pay = s.pay := rfl
@[simp] theorem State.settleAfterData_bi (s : State) : s.settleAfterData.bi = s.bi := rfl
@[simp] theorem State.settleAfterData_tbl (s : State) : s.settleAfterData.tbl = s.tbl := rfl
@[simp] theorem State.settleAfterData_tlen (s : State) : s.settleAfterData.tlen = s.tlen := rfl
@[simp] theorem State.settleAfterData_ci (s : State) : s.settleAfterData.ci = s.ci := rfl
@[simp] theorem State.settleAfterData_cfg (s : State) : s.settleAfterData.cfg = s.cfg := rfl
@[simp] theorem State.settleAfterData_cfgd (s : State) : s.settleAfterData.cfgd = s.cfgd := rfl
@[simp] theorem State.settleAfterData_cs (s : State) : s.settleAfterData.cs = s.cs := rfl
@[simp] theorem State.settleAfterData_pk (s : State) : s.settleAfterData.pk = s.pk := rfl
@[simp] theorem State.settleAfterData_res (s : State) : s.settleAfterData.res = s.res := rfl
@[simp] theorem State.settleAfterData_fidx (s : State) : s.settleAfterData.fidx = s.fidx := rfl
@[simp] theorem State.settleAfterData_pc (s : State) : s.settleAfterData.pc = .u12 := rfl
@[simp] theorem State.settleAfterData_ctrl (s : State) : s.settleAfterData.ctrl = s.ctrl := rfl
@[simp] theorem State.settleAfterData_trace (s : State) : s.settleAfterData.trace = s.trace ++ [.settle] := rfl
@[simp] theorem State.settleAfterData_frames (s : State) : s.settleAfterData.frames = s.frames := rfl
@[simp] theorem State.settleAfterData_par (s : State) : s.settleAfterData.par = s.par := rfl
@[simp] theorem State.settleAfterData_modifying (s : State) : s.settleAfterData.modifying = s.modifying := rfl
@[simp] theorem State.settleAfterData_hostIn (s : State) : s.settleAfterData.hostIn = s.hostIn := rfl
@[simp] theorem State.settleAfterData_answers (s : State) : s.settleAfterData.answers = s.answers := rfl
@[simp] theorem State.settleAfterData_reqs (s : State) : s.settleAfterData.reqs = s.reqs := rfl

/-! ## The read of a MODIFY (R133) -/

@[simp] theorem State.startModify_op (r : CtrlReg) (m v : Word) (s : State) :
    (s.startModify r m v).op = s.op := rfl
@[simp] theorem State.startModify_sa (r : CtrlReg) (m v : Word) (s : State) :
    (s.startModify r m v).sa = s.sa := rfl
@[simp] theorem State.startModify_cnt (r : CtrlReg) (m v : Word) (s : State) :
    (s.startModify r m v).cnt = s.cnt := rfl
@[simp] theorem State.startModify_pay (r : CtrlReg) (m v : Word) (s : State) :
    (s.startModify r m v).pay = s.pay := rfl
@[simp] theorem State.startModify_bi (r : CtrlReg) (m v : Word) (s : State) :
    (s.startModify r m v).bi = s.bi := rfl
@[simp] theorem State.startModify_tbl (r : CtrlReg) (m v : Word) (s : State) :
    (s.startModify r m v).tbl = s.tbl := rfl
@[simp] theorem State.startModify_tlen (r : CtrlReg) (m v : Word) (s : State) :
    (s.startModify r m v).tlen = s.tlen := rfl
@[simp] theorem State.startModify_ci (r : CtrlReg) (m v : Word) (s : State) :
    (s.startModify r m v).ci = s.ci := rfl
@[simp] theorem State.startModify_cfg (r : CtrlReg) (m v : Word) (s : State) :
    (s.startModify r m v).cfg = s.cfg := rfl
@[simp] theorem State.startModify_cfgd (r : CtrlReg) (m v : Word) (s : State) :
    (s.startModify r m v).cfgd = s.cfgd := rfl
@[simp] theorem State.startModify_cs (r : CtrlReg) (m v : Word) (s : State) :
    (s.startModify r m v).cs = s.cs := rfl
@[simp] theorem State.startModify_pk (r : CtrlReg) (m v : Word) (s : State) :
    (s.startModify r m v).pk = s.pk := rfl
@[simp] theorem State.startModify_res (r : CtrlReg) (m v : Word) (s : State) :
    (s.startModify r m v).res = s.res := rfl
@[simp] theorem State.startModify_fidx (r : CtrlReg) (m v : Word) (s : State) :
    (s.startModify r m v).fidx = s.fidx := rfl
@[simp] theorem State.startModify_pc (r : CtrlReg) (m v : Word) (s : State) :
    (s.startModify r m v).pc = s.pc := rfl
@[simp] theorem State.startModify_ctrl (r : CtrlReg) (m v : Word) (s : State) :
    (s.startModify r m v).ctrl = s.ctrl.observe r s.answer := rfl
@[simp] theorem State.startModify_trace (r : CtrlReg) (m v : Word) (s : State) :
    (s.startModify r m v).trace = s.trace ++ [.read r.offset s.answer] := rfl
@[simp] theorem State.startModify_frames (r : CtrlReg) (m v : Word) (s : State) :
    (s.startModify r m v).frames = s.frames := rfl
@[simp] theorem State.startModify_par (r : CtrlReg) (m v : Word) (s : State) :
    (s.startModify r m v).par = s.par := rfl
@[simp] theorem State.startModify_modifying (r : CtrlReg) (m v : Word) (s : State) :
    (s.startModify r m v).modifying = some { reg := r, value := modifyWord s.answer m v } := rfl
@[simp] theorem State.startModify_hostIn (r : CtrlReg) (m v : Word) (s : State) :
    (s.startModify r m v).hostIn = s.hostIn := rfl
@[simp] theorem State.startModify_answers (r : CtrlReg) (m v : Word) (s : State) :
    (s.startModify r m v).answers = s.answers.tail := rfl
@[simp] theorem State.startModify_reqs (r : CtrlReg) (m v : Word) (s : State) :
    (s.startModify r m v).reqs = s.reqs + 1 := rfl

/-! ## The write of a MODIFY (R133, R80) -/

@[simp] theorem State.finishModify_op (m : ModifyWrite) (s : State) :
    (s.finishModify m).op = s.op := rfl
@[simp] theorem State.finishModify_sa (m : ModifyWrite) (s : State) :
    (s.finishModify m).sa = s.sa := rfl
@[simp] theorem State.finishModify_cnt (m : ModifyWrite) (s : State) :
    (s.finishModify m).cnt = s.cnt := rfl
@[simp] theorem State.finishModify_pay (m : ModifyWrite) (s : State) :
    (s.finishModify m).pay = s.pay := rfl
@[simp] theorem State.finishModify_bi (m : ModifyWrite) (s : State) :
    (s.finishModify m).bi = s.bi := rfl
@[simp] theorem State.finishModify_tbl (m : ModifyWrite) (s : State) :
    (s.finishModify m).tbl = s.tbl := rfl
@[simp] theorem State.finishModify_tlen (m : ModifyWrite) (s : State) :
    (s.finishModify m).tlen = s.tlen := rfl
@[simp] theorem State.finishModify_ci (m : ModifyWrite) (s : State) :
    (s.finishModify m).ci = s.ci := rfl
@[simp] theorem State.finishModify_cfg (m : ModifyWrite) (s : State) :
    (s.finishModify m).cfg = s.cfg := rfl
@[simp] theorem State.finishModify_cfgd (m : ModifyWrite) (s : State) :
    (s.finishModify m).cfgd = s.cfgd := rfl
@[simp] theorem State.finishModify_cs (m : ModifyWrite) (s : State) :
    (s.finishModify m).cs = s.cs := rfl
@[simp] theorem State.finishModify_pk (m : ModifyWrite) (s : State) :
    (s.finishModify m).pk = s.pk := rfl
@[simp] theorem State.finishModify_res (m : ModifyWrite) (s : State) :
    (s.finishModify m).res = s.res := rfl
@[simp] theorem State.finishModify_fidx (m : ModifyWrite) (s : State) :
    (s.finishModify m).fidx = s.fidx := rfl
@[simp] theorem State.finishModify_pc (m : ModifyWrite) (s : State) :
    (s.finishModify m).pc = s.pc := rfl
@[simp] theorem State.finishModify_ctrl (m : ModifyWrite) (s : State) :
    (s.finishModify m).ctrl = (s.ctrl.statusTurn s.reqs).write (s.reqs + 1) m.reg m.value := rfl
@[simp] theorem State.finishModify_trace (m : ModifyWrite) (s : State) :
    (s.finishModify m).trace = s.trace ++ [.write m.reg.offset m.value] := rfl
@[simp] theorem State.finishModify_frames (m : ModifyWrite) (s : State) :
    (s.finishModify m).frames = s.frames := rfl
@[simp] theorem State.finishModify_par (m : ModifyWrite) (s : State) :
    (s.finishModify m).par = s.par := rfl
@[simp] theorem State.finishModify_modifying (m : ModifyWrite) (s : State) :
    (s.finishModify m).modifying = none := rfl
@[simp] theorem State.finishModify_hostIn (m : ModifyWrite) (s : State) :
    (s.finishModify m).hostIn = s.hostIn := rfl
@[simp] theorem State.finishModify_answers (m : ModifyWrite) (s : State) :
    (s.finishModify m).answers = s.answers := rfl
@[simp] theorem State.finishModify_reqs (m : ModifyWrite) (s : State) :
    (s.finishModify m).reqs = s.reqs + 1 + 1 := rfl

/-! ## Taking the instruction: only HOST's list changes, and only at idle (log 4) -/

@[simp] theorem State.consume_op (s : State) : s.consume.op = s.op := by unfold State.consume; split <;> rfl
@[simp] theorem State.consume_sa (s : State) : s.consume.sa = s.sa := by unfold State.consume; split <;> rfl
@[simp] theorem State.consume_cnt (s : State) : s.consume.cnt = s.cnt := by unfold State.consume; split <;> rfl
@[simp] theorem State.consume_pay (s : State) : s.consume.pay = s.pay := by unfold State.consume; split <;> rfl
@[simp] theorem State.consume_bi (s : State) : s.consume.bi = s.bi := by unfold State.consume; split <;> rfl
@[simp] theorem State.consume_tbl (s : State) : s.consume.tbl = s.tbl := by unfold State.consume; split <;> rfl
@[simp] theorem State.consume_tlen (s : State) : s.consume.tlen = s.tlen := by unfold State.consume; split <;> rfl
@[simp] theorem State.consume_ci (s : State) : s.consume.ci = s.ci := by unfold State.consume; split <;> rfl
@[simp] theorem State.consume_cfg (s : State) : s.consume.cfg = s.cfg := by unfold State.consume; split <;> rfl
@[simp] theorem State.consume_cfgd (s : State) : s.consume.cfgd = s.cfgd := by unfold State.consume; split <;> rfl
@[simp] theorem State.consume_cs (s : State) : s.consume.cs = s.cs := by unfold State.consume; split <;> rfl
@[simp] theorem State.consume_pk (s : State) : s.consume.pk = s.pk := by unfold State.consume; split <;> rfl
@[simp] theorem State.consume_res (s : State) : s.consume.res = s.res := by unfold State.consume; split <;> rfl
@[simp] theorem State.consume_fidx (s : State) : s.consume.fidx = s.fidx := by unfold State.consume; split <;> rfl
@[simp] theorem State.consume_pc (s : State) : s.consume.pc = s.pc := by unfold State.consume; split <;> rfl
@[simp] theorem State.consume_ctrl (s : State) : s.consume.ctrl = s.ctrl := by unfold State.consume; split <;> rfl
@[simp] theorem State.consume_trace (s : State) : s.consume.trace = s.trace := by unfold State.consume; split <;> rfl
@[simp] theorem State.consume_frames (s : State) : s.consume.frames = s.frames := by unfold State.consume; split <;> rfl
@[simp] theorem State.consume_par (s : State) : s.consume.par = s.par := by unfold State.consume; split <;> rfl
@[simp] theorem State.consume_modifying (s : State) : s.consume.modifying = s.modifying := by unfold State.consume; split <;> rfl
@[simp] theorem State.consume_answers (s : State) : s.consume.answers = s.answers := by unfold State.consume; split <;> rfl
@[simp] theorem State.consume_reqs (s : State) : s.consume.reqs = s.reqs := by unfold State.consume; split <;> rfl

theorem State.consume_busy {s : State} (h : s.op ≠ .none) : s.consume = s := by
  unfold State.consume; split <;> first | rfl | contradiction

theorem State.consume_idle {s : State} (h : s.op = .none) : s.consume = { s with hostIn := s.hostIn.tail } := by
  unfold State.consume; simp [h]

/-! ## The table loop's test (R203, R206): only the operation and its result may change -/

@[simp] theorem State.tableLoop_sa (s : State) : s.tableLoop.sa = s.sa := by unfold State.tableLoop; split <;> rfl
@[simp] theorem State.tableLoop_cnt (s : State) : s.tableLoop.cnt = s.cnt := by unfold State.tableLoop; split <;> rfl
@[simp] theorem State.tableLoop_pay (s : State) : s.tableLoop.pay = s.pay := by unfold State.tableLoop; split <;> rfl
@[simp] theorem State.tableLoop_bi (s : State) : s.tableLoop.bi = s.bi := by unfold State.tableLoop; split <;> rfl
@[simp] theorem State.tableLoop_tbl (s : State) : s.tableLoop.tbl = s.tbl := by unfold State.tableLoop; split <;> rfl
@[simp] theorem State.tableLoop_tlen (s : State) : s.tableLoop.tlen = s.tlen := by unfold State.tableLoop; split <;> rfl
@[simp] theorem State.tableLoop_ci (s : State) : s.tableLoop.ci = s.ci := by unfold State.tableLoop; split <;> rfl
@[simp] theorem State.tableLoop_cfg (s : State) : s.tableLoop.cfg = s.cfg := by unfold State.tableLoop; split <;> rfl
@[simp] theorem State.tableLoop_cfgd (s : State) : s.tableLoop.cfgd = s.cfgd := by unfold State.tableLoop; split <;> rfl
@[simp] theorem State.tableLoop_cs (s : State) : s.tableLoop.cs = s.cs := by unfold State.tableLoop; split <;> rfl
@[simp] theorem State.tableLoop_pk (s : State) : s.tableLoop.pk = s.pk := by unfold State.tableLoop; split <;> rfl
@[simp] theorem State.tableLoop_fidx (s : State) : s.tableLoop.fidx = s.fidx := by unfold State.tableLoop; split <;> rfl
@[simp] theorem State.tableLoop_pc (s : State) : s.tableLoop.pc = s.pc := by unfold State.tableLoop; split <;> rfl
@[simp] theorem State.tableLoop_ctrl (s : State) : s.tableLoop.ctrl = s.ctrl := by unfold State.tableLoop; split <;> rfl
@[simp] theorem State.tableLoop_trace (s : State) : s.tableLoop.trace = s.trace := by unfold State.tableLoop; split <;> rfl
@[simp] theorem State.tableLoop_frames (s : State) : s.tableLoop.frames = s.frames := by unfold State.tableLoop; split <;> rfl
@[simp] theorem State.tableLoop_par (s : State) : s.tableLoop.par = s.par := by unfold State.tableLoop; split <;> rfl
@[simp] theorem State.tableLoop_modifying (s : State) : s.tableLoop.modifying = s.modifying := by unfold State.tableLoop; split <;> rfl
@[simp] theorem State.tableLoop_hostIn (s : State) : s.tableLoop.hostIn = s.hostIn := by unfold State.tableLoop; split <;> rfl
@[simp] theorem State.tableLoop_answers (s : State) : s.tableLoop.answers = s.answers := by unfold State.tableLoop; split <;> rfl
@[simp] theorem State.tableLoop_reqs (s : State) : s.tableLoop.reqs = s.reqs := by unfold State.tableLoop; split <;> rfl

theorem State.tableLoop_more {s : State} (h : s.ci < s.tlen) : s.tableLoop = s := by simp [State.tableLoop, h]

theorem State.tableLoop_done {s : State} (h : ¬ s.ci < s.tlen) :
    s.tableLoop = { s with res := .ok, op := .none } := by simp [State.tableLoop, h]

/-! ## What an answered read leaves in the controller (log 3) -/

@[simp] theorem Controller.observe_softReset (r : CtrlReg) (v : Word) (c : Controller) :
    (c.observe r v).softReset = c.softReset := by cases r <;> rfl
theorem Controller.observe_irqStatusRaw (r : CtrlReg) (v : Word) (c : Controller) :
    (c.observe r v).irqStatusRaw = if r = .irqStatusRaw then v else c.irqStatusRaw := by cases r <;> rfl
theorem Controller.observe_resetStatus (r : CtrlReg) (v : Word) (c : Controller) :
    (c.observe r v).resetStatus = if r = .resetStatus then v else c.resetStatus := by cases r <;> rfl
@[simp] theorem Controller.observe_fifoBuffer (r : CtrlReg) (v : Word) (c : Controller) :
    (c.observe r v).fifoBuffer = c.fifoBuffer := by cases r <;> rfl
@[simp] theorem Controller.observe_byteCount (r : CtrlReg) (v : Word) (c : Controller) :
    (c.observe r v).byteCount = c.byteCount := by cases r <;> rfl
@[simp] theorem Controller.observe_data (r : CtrlReg) (v : Word) (c : Controller) :
    (c.observe r v).data = c.data := by cases r <;> rfl
@[simp] theorem Controller.observe_control (r : CtrlReg) (v : Word) (c : Controller) :
    (c.observe r v).control = c.control := by cases r <;> rfl
@[simp] theorem Controller.observe_slaveAddr (r : CtrlReg) (v : Word) (c : Controller) :
    (c.observe r v).slaveAddr = c.slaveAddr := by cases r <;> rfl
@[simp] theorem Controller.observe_prescale (r : CtrlReg) (v : Word) (c : Controller) :
    (c.observe r v).prescale = c.prescale := by cases r <;> rfl
@[simp] theorem Controller.observe_clockLow (r : CtrlReg) (v : Word) (c : Controller) :
    (c.observe r v).clockLow = c.clockLow := by cases r <;> rfl
@[simp] theorem Controller.observe_clockHigh (r : CtrlReg) (v : Word) (c : Controller) :
    (c.observe r v).clockHigh = c.clockHigh := by cases r <;> rfl
@[simp] theorem Controller.observe_byteCounter (r : CtrlReg) (v : Word) (c : Controller) :
    (c.observe r v).byteCounter = c.byteCounter := by cases r <;> rfl
@[simp] theorem Controller.observe_txBytes (r : CtrlReg) (v : Word) (c : Controller) :
    (c.observe r v).txBytes = c.txBytes := by cases r <;> rfl
@[simp] theorem Controller.observe_threshold (r : CtrlReg) (v : Word) (c : Controller) :
    (c.observe r v).threshold = c.threshold := by cases r <;> rfl
@[simp] theorem Controller.observe_dataEmpty (r : CtrlReg) (v : Word) (c : Controller) :
    (c.observe r v).dataEmpty = c.dataEmpty := by cases r <;> rfl
@[simp] theorem Controller.observe_framing (r : CtrlReg) (v : Word) (c : Controller) :
    (c.observe r v).framing = c.framing := by cases r <;> rfl

/-! ## CTRL's turn within a MODIFY (R80): only the status registers may change -/

@[simp] theorem Controller.statusTurn_softReset (k : Nat) (c : Controller) :
    (c.statusTurn k).softReset = c.softReset := rfl
@[simp] theorem Controller.statusTurn_irqStatusRaw (k : Nat) (c : Controller) :
    (c.statusTurn k).irqStatusRaw = Config.freeRegister k (CtrlReg.offset .irqStatusRaw) := rfl
@[simp] theorem Controller.statusTurn_resetStatus (k : Nat) (c : Controller) :
    (c.statusTurn k).resetStatus = Config.freeRegister k (CtrlReg.offset .resetStatus) := rfl
@[simp] theorem Controller.statusTurn_fifoBuffer (k : Nat) (c : Controller) :
    (c.statusTurn k).fifoBuffer = c.fifoBuffer := rfl
@[simp] theorem Controller.statusTurn_byteCount (k : Nat) (c : Controller) :
    (c.statusTurn k).byteCount = c.byteCount := rfl
@[simp] theorem Controller.statusTurn_data (k : Nat) (c : Controller) :
    (c.statusTurn k).data = c.data := rfl
@[simp] theorem Controller.statusTurn_control (k : Nat) (c : Controller) :
    (c.statusTurn k).control = c.control := rfl
@[simp] theorem Controller.statusTurn_slaveAddr (k : Nat) (c : Controller) :
    (c.statusTurn k).slaveAddr = c.slaveAddr := rfl
@[simp] theorem Controller.statusTurn_prescale (k : Nat) (c : Controller) :
    (c.statusTurn k).prescale = c.prescale := rfl
@[simp] theorem Controller.statusTurn_clockLow (k : Nat) (c : Controller) :
    (c.statusTurn k).clockLow = c.clockLow := rfl
@[simp] theorem Controller.statusTurn_clockHigh (k : Nat) (c : Controller) :
    (c.statusTurn k).clockHigh = c.clockHigh := rfl
@[simp] theorem Controller.statusTurn_byteCounter (k : Nat) (c : Controller) :
    (c.statusTurn k).byteCounter = c.byteCounter := rfl
@[simp] theorem Controller.statusTurn_txBytes (k : Nat) (c : Controller) :
    (c.statusTurn k).txBytes = c.txBytes := rfl
@[simp] theorem Controller.statusTurn_threshold (k : Nat) (c : Controller) :
    (c.statusTurn k).threshold = c.threshold := rfl
@[simp] theorem Controller.statusTurn_dataEmpty (k : Nat) (c : Controller) :
    (c.statusTurn k).dataEmpty = c.dataEmpty := rfl
@[simp] theorem Controller.statusTurn_framing (k : Nat) (c : Controller) :
    (c.statusTurn k).framing = c.framing := rfl

/-! ## Transmit-ready seen (log 28): only the emptiness changes -/

@[simp] theorem Controller.readySeen_softReset (c : Controller) :
    c.readySeen.softReset = c.softReset := rfl
@[simp] theorem Controller.readySeen_irqStatusRaw (c : Controller) :
    c.readySeen.irqStatusRaw = c.irqStatusRaw := rfl
@[simp] theorem Controller.readySeen_resetStatus (c : Controller) :
    c.readySeen.resetStatus = c.resetStatus := rfl
@[simp] theorem Controller.readySeen_fifoBuffer (c : Controller) :
    c.readySeen.fifoBuffer = c.fifoBuffer := rfl
@[simp] theorem Controller.readySeen_byteCount (c : Controller) :
    c.readySeen.byteCount = c.byteCount := rfl
@[simp] theorem Controller.readySeen_data (c : Controller) :
    c.readySeen.data = c.data := rfl
@[simp] theorem Controller.readySeen_control (c : Controller) :
    c.readySeen.control = c.control := rfl
@[simp] theorem Controller.readySeen_slaveAddr (c : Controller) :
    c.readySeen.slaveAddr = c.slaveAddr := rfl
@[simp] theorem Controller.readySeen_prescale (c : Controller) :
    c.readySeen.prescale = c.prescale := rfl
@[simp] theorem Controller.readySeen_clockLow (c : Controller) :
    c.readySeen.clockLow = c.clockLow := rfl
@[simp] theorem Controller.readySeen_clockHigh (c : Controller) :
    c.readySeen.clockHigh = c.clockHigh := rfl
@[simp] theorem Controller.readySeen_byteCounter (c : Controller) :
    c.readySeen.byteCounter = c.byteCounter := rfl
@[simp] theorem Controller.readySeen_txBytes (c : Controller) :
    c.readySeen.txBytes = c.txBytes := rfl
@[simp] theorem Controller.readySeen_threshold (c : Controller) :
    c.readySeen.threshold = c.threshold := rfl
@[simp] theorem Controller.readySeen_dataEmpty (c : Controller) :
    c.readySeen.dataEmpty = true := rfl
@[simp] theorem Controller.readySeen_framing (c : Controller) :
    c.readySeen.framing = c.framing := rfl

end Sys2Proof.Machine
end

