-- ==== Sys2Proof/Laws/Ops.lean ====
section
/-! SUPPORT. What each shared operation can do, said once: how a request is issued, the poll, the failure of a poll,
completion, and the request of each control position. Proofs cite these and unfold no operation. -/

namespace Sys2Proof.Machine

/-! ## Issuing a request (log 12) -/

theorem State.request_idle {s : State} (h : s.op = .none) : s.request = none := by simp [State.request, h]

theorem State.request_transaction {s : State} {pc : MicroPc} (h : s.inTransaction pc) :
    s.request = s.microRequest := by
  rcases h.1 with h | h <;> simp [State.request, h]

theorem State.request_config {s : State} (h : s.op = .cfgbus) : s.request = s.configRequest := by
  simp [State.request, h]

theorem State.primitive_idle {s : State} (f : State → State) (h : s.op = .none) : s.primitive f = .next (f s) := by
  simp [State.primitive, h]

theorem State.primitive_busy {s : State} (f : State → State) (h : s.op ≠ .none) :
    s.primitive f = .refused .competingAccess := by simp [State.primitive, h]

theorem State.issueWrite_emitted {s : State} {r : CtrlReg} {v : Word} (f : State → State)
    (h : s.request = some (.write r v)) : s.issueWrite r v f = .next (f (s.regWrite r v)) := by
  simp [State.issueWrite, h]

theorem State.issueWrite_idle {s : State} (r : CtrlReg) (v : Word) (f : State → State) (h : s.op = .none) :
    s.issueWrite r v f = .next (s.regWrite r v) := by
  simp [State.issueWrite, State.request_idle h, State.primitive_idle _ h]

theorem State.issueWrite_competing {s : State} {r : CtrlReg} {v : Word} (f : State → State)
    (h : s.op ≠ .none) (hr : s.request ≠ some (.write r v)) :
    s.issueWrite r v f = .refused .competingAccess := by
  simp [State.issueWrite, hr, State.primitive_busy _ h]

theorem State.issueRead_emitted {s : State} {r : CtrlReg} (f : State → State)
    (h : s.request = some (.read r)) : s.issueRead r f = .next (f s) := by
  simp [State.issueRead, h]

theorem State.issueRead_idle {s : State} (r : CtrlReg) (f : State → State) (h : s.op = .none) :
    s.issueRead r f = .next (s.regRead r) := by
  simp [State.issueRead, State.request_idle h, State.primitive_idle _ h]

theorem State.issueRead_competing {s : State} {r : CtrlReg} (f : State → State)
    (h : s.op ≠ .none) (hr : s.request ≠ some (.read r)) :
    s.issueRead r f = .refused .competingAccess := by
  simp [State.issueRead, hr, State.primitive_busy _ h]

theorem State.atOffset_mapped {s : State} {r : CtrlReg} (f : CtrlReg → State → State) :
    s.atOffset r.offset f = s.primitive (f r) := by simp [State.atOffset]

theorem State.atOffset_unmapped {s : State} {off : Byte} (f : CtrlReg → State → State)
    (h : ∀ r : CtrlReg, r.offset ≠ off) : s.atOffset off f = .refused .unmappedOffset := by
  have : CtrlReg.ofOffset? off = none := by
    cases hx : CtrlReg.ofOffset? off with
    | none => rfl
    | some r => exact absurd (CtrlReg.offset_of_ofOffset? hx) (h r)
  simp [State.atOffset, this]

/-! ## Write-one-to-clear (R82) -/

theorem clearByWrite_eq (old written free : Word) :
    clearByWrite old written free = (old &&& ~~~written) ||| (free &&& (written &&& ~~~irqFlags)) := by
  unfold clearByWrite
  split
  · rename_i h
    simp [h]
  · rfl

/-- The write SEQ makes clears XRDY and leaves every other bit (R111). -/
@[simp] theorem clearByWrite_xrdyClr (old free : Word) : clearByWrite old xrdyClr free = old &&& ~~~xrdyClr := by
  have h : xrdyClr &&& ~~~irqFlags = 0 := by decide
  simp [clearByWrite, h]

/-- A bit written 0 keeps its value (R82). -/
theorem clearByWrite_zero {old written free : Word} {k : Nat} (h : written.getLsbD k = false) :
    (clearByWrite old written free).getLsbD k = old.getLsbD k := by
  rw [clearByWrite_eq]
  by_cases hk : k < 32
  · simp only [BitVec.getLsbD_or, BitVec.getLsbD_and, BitVec.getLsbD_not, h]
    simp [hk]
  · simp [BitVec.getLsbD_of_ge _ _ (Nat.not_lt.1 hk)]

/-- A flag written 1 is clear (R82, R278). -/
theorem clearByWrite_flag {old written free : Word} {k : Nat} (hf : irqFlags.getLsbD k = true)
    (h : written.getLsbD k = true) : (clearByWrite old written free).getLsbD k = false := by
  rw [clearByWrite_eq]
  simp [h, hf]

/-! ## A byte written to DATA (R109, R188) -/

/-- A zero-extended byte is one of the words WR.DATA writes. -/
theorem zext32_byte_lt (b : Byte) : (zext32 b).toNat < 2 ^ 8 := by
  have := b.isLt
  simp [zext32]
  omega

/-- What SEQ's byte does in the controller: log 8's other case never arises. -/
theorem Controller.writeData_byte (k : Nat) (b : Byte) (c : Controller) :
    c.writeData k (zext32 b) =
      { c with
        data := zext32 b
        byteCounter := if c.byteCounter = 0 then Config.freeCounter k else c.byteCounter - 1
        txBytes := c.txBytes ++ [b]
        dataEmpty := false } := by
  have h : (zext32 b).setWidth 8 = b := by
    apply BitVec.eq_of_getLsbD_eq
    intro i hi
    simp [zext32, hi]
  simp only [Controller.writeData, if_pos (zext32_byte_lt b), h]

/-! ## The poll (R180, R182) -/

theorem boundReached_iff (p : Params) (k : Nat) :
    boundReached p k = true ↔ ∃ b, p.pollBound = some b ∧ b.val ≤ k := by
  unfold boundReached
  cases p.pollBound <;> simp

theorem State.pollFailed_again {s : State} (k : TimeoutKind) (h : ¬ s.lastRead) :
    s.pollFailed k = { s with pk := s.pk + 1 } := by
  have : boundReached s.par (s.pk + 1) ≠ true := fun hb => h ((boundReached_iff _ _).1 hb)
  simp [State.pollFailed, this]

theorem State.pollFailed_timeout {s : State} (k : TimeoutKind) (h : s.lastRead) :
    s.pollFailed k = { s with pk := s.pk + 1 }.raiseTimeout k := by
  have : boundReached s.par (s.pk + 1) = true := (boundReached_iff _ _).2 h
  simp [State.pollFailed, this]

theorem PollSpec.passes_iff (p : PollSpec) (v : Word) : p.passes v = true ↔ v.getLsbD p.bit = p.want := by
  simp [PollSpec.passes]

theorem State.poll_pass {s : State} {p : PollSpec} (f : State → State) (h : s.answer.getLsbD p.bit = p.want) :
    s.poll p f = f (s.regRead p.reg) := by
  simp [State.poll, PollSpec.passes, h]

theorem State.poll_fail {s : State} {p : PollSpec} (f : State → State) (h : s.answer.getLsbD p.bit ≠ p.want) :
    s.poll p f = (s.regRead p.reg).pollFailed p.kind := by
  simp [State.poll, PollSpec.passes, h]

/-- Everything one step of a poll can do: pass, fail with budget left, or take the timeout (R180). -/
theorem State.poll_cases (p : PollSpec) (f : State → State) (s : State) :
    (s.answer.getLsbD p.bit = p.want ∧ s.poll p f = f (s.regRead p.reg)) ∨
    (s.answer.getLsbD p.bit ≠ p.want ∧ ¬ s.lastRead ∧
      s.poll p f = { s.regRead p.reg with pk := s.pk + 1 }) ∨
    (s.answer.getLsbD p.bit ≠ p.want ∧ s.lastRead ∧
      s.poll p f = { s.regRead p.reg with pk := s.pk + 1 }.raiseTimeout p.kind) := by
  by_cases h : s.answer.getLsbD p.bit = p.want
  · exact .inl ⟨h, State.poll_pass f h⟩
  · by_cases hb : s.lastRead
    · refine .inr (.inr ⟨h, hb, ?_⟩)
      rw [State.poll_fail f h, State.pollFailed_timeout]
      · rfl
      · exact hb
    · refine .inr (.inl ⟨h, hb, ?_⟩)
      rw [State.poll_fail f h, State.pollFailed_again]
      · rfl
      · exact hb

/-- The supplied answer, when State supplies one. -/
@[simp] theorem State.answer_cons (s : State) (v : Word) (vs : List Word) (h : s.answers = v :: vs) :
    s.answer = v := by simp [State.answer, h]

/-! ## Completion (R161, R206) -/

theorem State.transactionDone_xfer {s : State} (h : s.op = .xfer) :
    s.transactionDone = { s with frames := s.frames ++ [.frame s.sa s.pay], pc := .u0, op := .none, res := .ok,
                                 ctrl := { s.ctrl with framing := false } } := by
  simp [State.transactionDone, h]

theorem State.transactionDone_more {s : State} (h : s.op = .runtable) (hm : s.ci + 1 < s.tlen) :
    s.transactionDone = { s with frames := s.frames ++ [.frame s.sa s.pay], pc := .u0, ci := s.ci + 1,
                                 ctrl := { s.ctrl with framing := false } } := by
  simp [State.transactionDone, State.tableLoop, h, hm]

theorem State.transactionDone_last {s : State} (h : s.op = .runtable) (hm : ¬ s.ci + 1 < s.tlen) :
    s.transactionDone = { s with frames := s.frames ++ [.frame s.sa s.pay], pc := .u0, ci := s.ci + 1, op := .none,
                                 res := .ok, ctrl := { s.ctrl with framing := false } } := by
  simp [State.transactionDone, State.tableLoop, h, hm]

/-! ## The words of a request -/

@[simp] theorem decode_read_word (r : CtrlReg) : decode (.rb (Request.word (.read r))) = .ok (decodeRead r.offset) :=
  decode_rbPack_read _

@[simp] theorem decode_write_word (r : CtrlReg) (v : Word) :
    decode (.rb (Request.word (.write r v))) = .ok (decodeWrite r.offset v) :=
  decode_rbPack_write _ _

end Sys2Proof.Machine
end

