-- ==== Sys2Proof/Laws/PerInstr.lean ====
section
/-! SUPPORT. For every instruction: the word it is encoded as meets the match and mask of its row in
spec/opcode_table.json (R104, R106). -/

namespace Sys2Proof.Laws.TableRow

/-- The number the opcode table matches for the instruction's encoding has the row's pattern under the row's mask. -/
def Statement (i : Instr) : Prop := (encode i).key &&& i.row.mask = i.row.pattern

/-- A request meets a row when each of its 41 bits does. -/
theorem rb_meets {w m p : RbWord} (h : ∀ k < 41, (w &&& m).getLsbD k = p.getLsbD k) :
    w.toNat &&& m.toNat = p.toNat := by
  have : w &&& m = p := BitVec.eq_of_getLsbD_eq h
  rw [← this, BitVec.toNat_and]

theorem srst : Statement .srst := by unfold Statement; decide
theorem rdIrqraw : Statement .rdIrqraw := by unfold Statement; decide
theorem clrXrdy : Statement .clrXrdy := by unfold Statement; decide
theorem rdSyss : Statement .rdSyss := by unfold Statement; decide
theorem wrBuf : Statement .wrBuf := by unfold Statement; decide

theorem wrCnt (n : BitVec 16) : Statement (.wrCnt n) :=
  rb_meets (w := rbPack true 0x98 (n.setWidth 32)) (m := 0x1FFFFFF0000) (p := 0x19800000000) (by
    intro k hk
    interval_cases k <;> simp [rbPack])

theorem wrData (b : Byte) : Statement (.wrData b) :=
  rb_meets (w := rbPack true 0x9C (b.setWidth 32)) (m := 0x1FFFFFFFF00) (p := 0x19C00000000) (by
    intro k hk
    interval_cases k <;> simp [rbPack])

theorem wrCon (en : BitVec 30) : Statement (.wrCon en) :=
  rb_meets (w := rbPack true 0xA4 ((en.setWidth 32 <<< 2) ||| 3)) (m := 0x1FF00000003) (p := 0x1A400000003) (by
    intro k hk
    interval_cases k <;> simp [rbPack])

theorem wrSa (a : BitVec 7) : Statement (.wrSa a) :=
  rb_meets (w := rbPack true 0xAC (a.setWidth 32)) (m := 0x1FFFFFFFF80) (p := 0x1AC00000000) (by
    intro k hk
    interval_cases k <;> simp [rbPack])

theorem wrPsc (v : Word) : Statement (.wrPsc v) :=
  rb_meets (w := rbPack true 0xB0 v) (m := 0x1FF00000000) (p := 0x1B000000000) (by
    intro k hk
    interval_cases k <;> simp [rbPack])

theorem wrScll (v : Word) : Statement (.wrScll v) :=
  rb_meets (w := rbPack true 0xB4 v) (m := 0x1FF00000000) (p := 0x1B400000000) (by
    intro k hk
    interval_cases k <;> simp [rbPack])

theorem wrSclh (v : Word) : Statement (.wrSclh v) :=
  rb_meets (w := rbPack true 0xB8 v) (m := 0x1FF00000000) (p := 0x1B800000000) (by
    intro k hk
    interval_cases k <;> simp [rbPack])

theorem regwr (reg val : Byte) : Statement (.regwr reg val) := by simp [Statement, Instr.row]

theorem cfgbus (psc scll sclh : Word) : Statement (.cfgbus psc scll sclh) := by
  simp [Statement, Instr.row, encode, Encoded.key]

theorem xfer (sa n : Nat) (payload : List Byte) : Statement (.xfer sa n payload) := by
  simp [Statement, Instr.row, encode, Encoded.key]

theorem runtable (sa tlen : Nat) (table : List CommandEntry) : Statement (.runtable sa tlen table) := by
  simp [Statement, Instr.row, encode, Encoded.key]

/-- A read request meets READ's row, whose mask leaves OFF out (R106). -/
theorem read_request (off : Byte) : (rbPack false off 0).toNat &&& 0x100FFFFFFFF = 0x00000000000 :=
  rb_meets (w := rbPack false off 0) (m := 0x100FFFFFFFF) (p := 0x00000000000) (by
    intro k hk
    interval_cases k <;> simp [rbPack])

theorem read (off : Byte) : Statement (.read off) := read_request off

theorem write (off : Byte) (v : Word) : Statement (.write off v) :=
  rb_meets (w := rbPack true off v) (m := 0x10000000000) (p := 0x10000000000) (by
    intro k hk
    interval_cases k <;> simp [rbPack])

theorem modify (off : Byte) (mask value : Word) : Statement (.modify off mask value) := read_request off

end Sys2Proof.Laws.TableRow
end

