-- ==== Sys2Proof/Laws/Step.lean ====
section
/-! SUPPORT. What one step does at each control position, said once. Every whole-machine rule and every run is a case
analysis over these. -/

namespace Sys2Proof.Machine

/-- A request SEQ emits is fetched and decoded. -/
theorem step_request {s : State} {r : Request} {i : Instr} (ho : s.op ≠ .none)
    (hu : ¬ (s.op = .runtable ∧ s.pc = .u0)) (hr : s.request = some r) (hd : decode (.rb r.word) = .ok i) :
    step s = exec i s := by
  have hf : s.fetch = some (.rb r.word) := by
    unfold State.fetch
    split <;> simp_all
    split <;> simp_all
  simp [step, hf, hd, State.consume_busy ho]

theorem inTransaction_busy {s : State} {pc : MicroPc} (h : s.inTransaction pc) : s.op ≠ .none := by
  rcases h.1 with h | h <;> simp [h]

/-- The same for a micro-step of a transaction. -/
theorem step_micro {s : State} {pc : MicroPc} {r : Request} {i : Instr} (h : s.inTransaction pc) (h0 : pc ≠ .u0)
    (hr : s.microRequest = some r) (hd : decode (.rb r.word) = .ok i) : step s = exec i s :=
  step_request (inTransaction_busy h) (fun hu => h0 (by rw [← h.2, hu.2]))
    (by rw [State.request_transaction h, hr]) hd

/-! ## The micro-steps (R163) -/

theorem step_u1 {s : State} (h : s.inTransaction .u1) :
    step s = .next { s.regWrite .softReset srstCmd with pc := .u2, pk := 0 } := by
  have hm : s.microRequest = some (.write .softReset srstCmd) := by simp [State.microRequest, h.2]
  rw [step_micro (i := .srst) h (by decide) hm ((decode_write_word _ _).trans (congrArg _ (decodeWrite_srst)))]
  simp only [exec, execSrst]
  rw [State.issueWrite_emitted]
  rw [State.request_transaction h, hm]

theorem step_u2 {s : State} (h : s.inTransaction .u2) :
    step s = .next (s.poll pollRdone fun u => { u with pc := .u3 }) := by
  have hm : s.microRequest = some (.read .resetStatus) := by simp [State.microRequest, h.2]
  rw [step_micro (i := .rdSyss) h (by decide) hm ((decode_read_word _).trans (congrArg _ decodeRead_syss))]
  simp only [exec, execRdSyss]
  rw [State.issueRead_emitted]
  rw [State.request_transaction h, hm]

theorem step_u3 {s : State} (h : s.inTransaction .u3) :
    step s = .next { s.regWrite .fifoBuffer fifoCfg with pc := .u4 } := by
  have hm : s.microRequest = some (.write .fifoBuffer fifoCfg) := by simp [State.microRequest, h.2]
  rw [step_micro (i := .wrBuf) h (by decide) hm ((decode_write_word _ _).trans (congrArg _ (decodeWrite_wrBuf)))]
  simp only [exec, execWrBuf]
  rw [State.issueWrite_emitted]
  rw [State.request_transaction h, hm]

theorem step_u4 {s : State} (h : s.inTransaction .u4) :
    step s = .next { s.regWrite .slaveAddr (zext32 s.sa) with pc := .u5 } := by
  have hm : s.microRequest = some (.write .slaveAddr (zext32 s.sa)) := by simp [State.microRequest, h.2]
  rw [step_micro (i := (.wrSa s.sa)) h (by decide) hm ((decode_write_word _ _).trans (congrArg _ (decodeWrite_wrSa _)))]
  simp only [exec, execWrSa]
  rw [State.issueWrite_emitted]
  rw [State.request_transaction h, hm]

theorem step_u5 {s : State} (h : s.inTransaction .u5) :
    step s = .next { s.regWrite .byteCount (zext32 s.cnt) with pc := .u6, pk := 0 } := by
  have hm : s.microRequest = some (.write .byteCount (zext32 s.cnt)) := by simp [State.microRequest, h.2]
  rw [step_micro (i := (.wrCnt s.cnt)) h (by decide) hm ((decode_write_word _ _).trans (congrArg _ (decodeWrite_wrCnt _)))]
  simp only [exec, execWrCnt]
  rw [State.issueWrite_emitted]
  rw [State.request_transaction h, hm]

/-- The three polls of IRQ-STATUS-RAW (R105). -/
theorem step_irq {s : State} {pc : MicroPc} (h : s.inTransaction pc) (hp : pc = .u6 ∨ pc = .u9 ∨ pc = .u13) :
    step s = .next s.pollIrq := by
  have hm : s.microRequest = some (.read .irqStatusRaw) := by
    rcases hp with rfl | rfl | rfl <;> simp [State.microRequest, h.2]
  have h0 : pc ≠ .u0 := by rcases hp with rfl | rfl | rfl <;> decide
  rw [step_micro (i := .rdIrqraw) h h0 hm ((decode_read_word _).trans (congrArg _ decodeRead_irq))]
  simp only [exec, execRdIrqraw]
  rw [State.issueRead_emitted]
  rw [State.request_transaction h, hm]

theorem step_u6 {s : State} (h : s.inTransaction .u6) :
    step s = .next (s.poll pollBb fun u => { u with pc := .u7 }) := by
  rw [step_irq h (.inl rfl)]; simp [State.pollIrq, h.2]

theorem step_u7 {s : State} (h : s.inTransaction .u7) :
    step s = .next { s.regWrite .control (armVal s.par) with pc := .u8 } := by
  have hm : s.microRequest = some (.write .control (armVal s.par)) := by simp [State.microRequest, h.2]
  rw [step_micro (i := .wrCon s.par.conEnable) h (by decide) hm
    ((decode_write_word _ _).trans (congrArg _ (decodeWrite_wrCon _)))]
  have hr : s.request = some (.write .control (armWord s.par.conEnable)) := by
    rw [State.request_transaction h, hm]; rfl
  simp only [exec, execWrCon]
  rw [State.issueWrite_emitted _ hr]
  rfl

theorem step_u9 {s : State} (h : s.inTransaction .u9) :
    step s = .next (s.poll pollXrdy fun u => { u with pc := .u10, ctrl := u.ctrl.readySeen }) := by
  rw [step_irq h (.inr (.inl rfl))]; simp [State.pollIrq, h.2]

theorem step_u10 {s : State} {b : Byte} (h : s.inTransaction .u10) (hb : s.pay[s.bi.toNat]? = some b) :
    step s = .next { s.regWrite .data (zext32 b) with pc := .u11 } := by
  have hm : s.microRequest = some (.write .data (zext32 b)) := by simp [State.microRequest, h.2, hb]
  rw [step_micro (i := (.wrData b)) h (by decide) hm ((decode_write_word _ _).trans (congrArg _ (decodeWrite_wrData _)))]
  simp only [exec, execWrData]
  rw [State.issueWrite_emitted]
  rw [State.request_transaction h, hm]

theorem step_u12 {s : State} (h : s.inTransaction .u12) :
    step s = .next (s.regWrite .irqStatusRaw xrdyClr).nextByte := by
  have hm : s.microRequest = some (.write .irqStatusRaw xrdyClr) := by simp [State.microRequest, h.2]
  rw [step_micro (i := .clrXrdy) h (by decide) hm ((decode_write_word _ _).trans (congrArg _ (decodeWrite_clrXrdy)))]
  simp only [exec, execClrXrdy]
  rw [State.issueWrite_emitted]
  rw [State.request_transaction h, hm]

theorem step_u13 {s : State} (h : s.inTransaction .u13) :
    step s = .next (s.poll pollBf State.transactionDone) := by
  rw [step_irq h (.inr (.inr rfl))]; simp [State.pollIrq, h.2]

theorem fetch_delay {s : State} {pc : MicroPc} (h : s.inTransaction pc) (hp : pc = .u8 ∨ pc = .u11) :
    s.fetch = none := by
  have hm : s.request = none := by
    rw [State.request_transaction h]
    rcases hp with rfl | rfl <;> simp [State.microRequest, h.2]
  have h2 := h.2
  rcases h.1 with ho | ho
  · simp [State.fetch, ho, hm]
  · rcases hp with rfl | rfl <;> simp [State.fetch, ho, h2, hm]

theorem step_u8 {s : State} (h : s.inTransaction .u8) : step s = .next s.settleAfterArm := by
  have hi : s.internalStep = some s.settleAfterArm := by
    rcases h.1 with ho | ho <;> simp [State.internalStep, State.delayStep, ho, h.2]
  simp [step, fetch_delay h (.inl rfl), hi]

theorem step_u11 {s : State} (h : s.inTransaction .u11) : step s = .next s.settleAfterData := by
  have hi : s.internalStep = some s.settleAfterData := by
    rcases h.1 with ho | ho <;> simp [State.internalStep, State.delayStep, ho, h.2]
  simp [step, fetch_delay h (.inr rfl), hi]

/-! ## The table loop (R203, R205) -/

theorem step_entry {s : State} {e : CommandEntry} (ho : s.op = .runtable) (hp : s.pc = .u0) (hc : s.ci < s.tlen)
    (he : s.tbl[s.ci]? = some e) :
    step s = .next { s with pay := [e.reg, e.val], cnt := 2, pk := 0, pc := .u1 } := by
  have hf : s.fetch = some (.ce e.word) := by simp [State.fetch, ho, hp, State.currentEntry?, hc, he]
  have hb : s.op ≠ .none := by simp [ho]
  simp [step, hf, decode, exec, execRegwr, State.consume_busy hb, ho, hp, hc, entryPayload]

/-! ## CFGBUS (R142 to R145) -/

theorem step_cfg0 {s : State} (ho : s.op = .cfgbus) (hc : s.cs = 0) :
    step s = .next { s.regWrite .prescale s.cfg.psc with cs := 1 } := by
  have hr : s.request = some (.write .prescale s.cfg.psc) := by
    simp [State.request_config ho, State.configRequest, hc]
  rw [step_request (i := .wrPsc s.cfg.psc) (by simp [ho]) (by simp [ho]) hr
    ((decode_write_word _ _).trans (congrArg _ (decodeWrite_wrPsc _)))]
  simp only [exec, execWrPsc]
  rw [State.issueWrite_emitted _ hr]

theorem step_cfg1 {s : State} (ho : s.op = .cfgbus) (hc : s.cs = 1) :
    step s = .next { s.regWrite .clockLow s.cfg.scll with cs := 2 } := by
  have hr : s.request = some (.write .clockLow s.cfg.scll) := by
    simp [State.request_config ho, State.configRequest, hc]
  rw [step_request (i := .wrScll s.cfg.scll) (by simp [ho]) (by simp [ho]) hr
    ((decode_write_word _ _).trans (congrArg _ (decodeWrite_wrScll _)))]
  simp only [exec, execWrScll]
  rw [State.issueWrite_emitted _ hr]

theorem step_cfg2 {s : State} (ho : s.op = .cfgbus) (hc : s.cs = 2) :
    step s = .next { s.regWrite .clockHigh s.cfg.sclh with cs := 3 }.configDone := by
  have hr : s.request = some (.write .clockHigh s.cfg.sclh) := by
    simp [State.request_config ho, State.configRequest, hc]
  rw [step_request (i := .wrSclh s.cfg.sclh) (by simp [ho]) (by simp [ho]) hr
    ((decode_write_word _ _).trans (congrArg _ (decodeWrite_wrSclh _)))]
  simp only [exec, execWrSclh]
  rw [State.issueWrite_emitted _ hr]

/-! ## Idle -/

/-- A step at idle: the write of a MODIFY, nothing, a command that asks for nothing, or the instruction HOST presents. -/
theorem step_idle {s : State} (ho : s.op = .none) :
    (∃ m, s.modifying = some m ∧ step s = .next (s.finishModify m)) ∨
    (s.modifying = none ∧ s.hostIn = [] ∧ step s = .next s) ∨
    ∃ e es, s.modifying = none ∧ s.hostIn = e :: es ∧
      ((decode e = .error .noOperation ∧ step s = .next { s with hostIn := es }) ∨
       (∃ i, decode e = .ok i ∧ step s = exec i { s with hostIn := es }) ∨
       (∃ r, step s = .refused (.undecodable r))) := by
  cases hm : s.modifying with
  | some m =>
    exact .inl ⟨m, rfl, by simp [step, State.fetch, State.internalStep, ho, hm]⟩
  | none =>
    refine .inr ?_
    cases hh : s.hostIn with
    | nil => exact .inl ⟨rfl, rfl, by simp [step, State.fetch, State.internalStep, ho, hh, hm]⟩
    | cons e es =>
      refine .inr ⟨e, es, rfl, rfl, ?_⟩
      have hf : s.fetch = some e := by simp [State.fetch, ho, hh, hm]
      have hc : s.consume = { s with hostIn := es } := by rw [State.consume_idle ho, hh]; rfl
      cases hd : decode e with
      | ok i => exact .inr (.inl ⟨i, rfl, by simp [step, hf, hd, hc, hm]⟩)
      | error r =>
        cases r with
        | noOperation => exact .inl ⟨rfl, by simp [step, hf, hd, hc, hm]⟩
        | readWithData => exact .inr (.inr ⟨.readWithData, by simp [step, hf, hd]⟩)
        | notAModifyPair => exact .inr (.inr ⟨.notAModifyPair, by simp [step, hf, hd]⟩)

/-- What an instruction that HOST presents at idle can do when it gives a next state: a primitive on the controller, or
the acceptance of a host operation. -/
theorem exec_idle_next {s t : State} {i : Instr} (ho : s.op = .none) (h : exec i s = .next t) :
    (∃ r, t = s.regRead r) ∨ (∃ r v, t = s.regWrite r v) ∨ (∃ r m v, t = s.startModify r m v) ∨
    (∃ a b c, i = .cfgbus a b c ∧
      t = { s with op := .cfgbus, res := .none, cfg := ⟨a, b, c⟩, cs := 0, pk := 0 }) ∨
    (∃ sa n p, i = .xfer sa n p ∧ s.cfgd = true ∧ sa ≤ 0x7F ∧ 1 ≤ n ∧ n ≤ 65535 ∧ p.length = n ∧
      t = { s with op := .xfer, res := .none, sa := BitVec.ofNat 7 sa, pay := p, cnt := BitVec.ofNat 16 n, pk := 0,
                   pc := .u1 }) ∨
    (∃ sa n tb, i = .runtable sa n tb ∧ s.cfgd = true ∧ sa ≤ 0x7F ∧ tb.length = n ∧
      t = State.tableLoop { s with op := .runtable, res := .none, sa := BitVec.ofNat 7 sa, tbl := tb, tlen := n,
                                   ci := 0, pk := 0, pc := .u0 }) := by
  have hw : ∀ r v f, s.issueWrite r v f = .next t → t = s.regWrite r v := by
    intro r v f hx
    rw [State.issueWrite_idle r v f ho] at hx
    cases hx; rfl
  have hrd : ∀ r f, s.issueRead r f = .next t → t = s.regRead r := by
    intro r f hx
    rw [State.issueRead_idle r f ho] at hx
    cases hx; rfl
  have hoff : ∀ off f, s.atOffset off f = .next t → ∃ r, t = f r s := by
    intro off f hx
    unfold State.atOffset at hx
    split at hx
    · rename_i r _
      rw [State.primitive_idle _ ho] at hx
      cases hx; exact ⟨r, rfl⟩
    · cases hx
  cases i with
  | srst | clrXrdy | wrBuf =>
    simp only [exec, execSrst, execClrXrdy, execWrBuf] at h; exact .inr (.inl ⟨_, _, hw _ _ _ h⟩)
  | wrCnt | wrData | wrCon | wrSa | wrPsc | wrScll | wrSclh =>
    simp only [exec, execWrCnt, execWrData, execWrCon, execWrSa, execWrPsc, execWrScll, execWrSclh] at h
    exact .inr (.inl ⟨_, _, hw _ _ _ h⟩)
  | rdIrqraw | rdSyss =>
    simp only [exec, execRdIrqraw, execRdSyss] at h; exact .inl ⟨_, hrd _ _ h⟩
  | read off => exact .inl (hoff _ _ h)
  | write off v => obtain ⟨r, hr⟩ := hoff _ _ h; exact .inr (.inl ⟨r, v, hr⟩)
  | modify off m v => obtain ⟨r, hr⟩ := hoff _ _ h; exact .inr (.inr (.inl ⟨r, m, v, hr⟩))
  | regwr => simp [exec, execRegwr, ho] at h
  | cfgbus a b c =>
    refine .inr (.inr (.inr (.inl ⟨a, b, c, rfl, ?_⟩)))
    simpa [exec, execCfgbus, ho] using h.symm
  | xfer sa n p =>
    refine .inr (.inr (.inr (.inr (.inl ⟨sa, n, p, rfl, ?_⟩))))
    simp only [exec, execXfer, ho] at h
    split at h
    · cases h
    · split at h
      · cases h
      · split at h
        · cases h
        · split at h
          · cases h
          · cases h
            simp_all
            omega
  | runtable sa n tb =>
    refine .inr (.inr (.inr (.inr (.inr ⟨sa, n, tb, rfl, ?_⟩))))
    simp only [exec, execRuntable, ho] at h
    split at h
    · cases h
    · split at h
      · cases h
      · split at h
        · cases h
        · split at h
          · cases h
          · cases h
            simp_all

/-! ## Every step of an operation in progress -/

/-- Where a machine that runs an operation can stand and what its step then does. -/
theorem step_busy_cases {s t : State} (ho : s.op ≠ .none) (h : step s = .next t) :
    (s.op = .cfgbus ∧ s.cs = 0 ∧ t = { s.regWrite .prescale s.cfg.psc with cs := 1 }) ∨
    (s.op = .cfgbus ∧ s.cs = 1 ∧ t = { s.regWrite .clockLow s.cfg.scll with cs := 2 }) ∨
    (s.op = .cfgbus ∧ s.cs = 2 ∧ t = State.configDone { s.regWrite .clockHigh s.cfg.sclh with cs := 3 }) ∨
    (s.op = .cfgbus ∧ s.cs = 3 ∧ t = s.configDone) ∨
    (s.op = .runtable ∧ s.pc = .u0 ∧ s.ci < s.tlen ∧
      ∃ e, s.tbl[s.ci]? = some e ∧ t = { s with pay := [e.reg, e.val], cnt := 2, pk := 0, pc := .u1 }) ∨
    (s.op = .runtable ∧ s.pc = .u0 ∧ ¬ s.ci < s.tlen ∧ t = { s with res := .ok, op := .none }) ∨
    (s.inTransaction .u1 ∧ t = { s.regWrite .softReset srstCmd with pc := .u2, pk := 0 }) ∨
    (s.inTransaction .u2 ∧ t = s.poll pollRdone fun u => { u with pc := .u3 }) ∨
    (s.inTransaction .u3 ∧ t = { s.regWrite .fifoBuffer fifoCfg with pc := .u4 }) ∨
    (s.inTransaction .u4 ∧ t = { s.regWrite .slaveAddr (zext32 s.sa) with pc := .u5 }) ∨
    (s.inTransaction .u5 ∧ t = { s.regWrite .byteCount (zext32 s.cnt) with pc := .u6, pk := 0 }) ∨
    (s.inTransaction .u6 ∧ t = s.poll pollBb fun u => { u with pc := .u7 }) ∨
    (s.inTransaction .u7 ∧ t = { s.regWrite .control (armVal s.par) with pc := .u8 }) ∨
    (s.inTransaction .u8 ∧ t = s.settleAfterArm) ∨
    (s.inTransaction .u9 ∧ t = s.poll pollXrdy fun u => { u with pc := .u10, ctrl := u.ctrl.readySeen }) ∨
    (s.inTransaction .u10 ∧ ∃ b, s.pay[s.bi.toNat]? = some b ∧
      t = { s.regWrite .data (zext32 b) with pc := .u11 }) ∨
    (s.inTransaction .u11 ∧ t = s.settleAfterData) ∨
    (s.inTransaction .u12 ∧ t = (s.regWrite .irqStatusRaw xrdyClr).nextByte) ∨
    (s.inTransaction .u13 ∧ t = s.poll pollBf State.transactionDone) := by
  by_cases hc : s.op = .cfgbus
  · have h4 : s.cs = 0 ∨ s.cs = 1 ∨ s.cs = 2 ∨ s.cs = 3 := by
      have : ∀ c : BitVec 2, c = 0 ∨ c = 1 ∨ c = 2 ∨ c = 3 := by decide
      exact this _
    rcases h4 with h4 | h4 | h4 | h4
    · rw [step_cfg0 hc h4] at h; cases h; exact .inl ⟨hc, h4, rfl⟩
    · rw [step_cfg1 hc h4] at h; cases h; exact .inr (.inl ⟨hc, h4, rfl⟩)
    · rw [step_cfg2 hc h4] at h; cases h; exact .inr (.inr (.inl ⟨hc, h4, rfl⟩))
    · have hr : s.request = none := by simp [State.request_config hc, State.configRequest, h4]
      have : step s = .next s.configDone := by simp [step, State.fetch, State.internalStep, hc, hr, h4]
      rw [this] at h; cases h; exact .inr (.inr (.inr (.inl ⟨hc, h4, rfl⟩)))
  · iterate 4 refine .inr ?_
    have hx : s.op = .xfer ∨ s.op = .runtable := by cases hop : s.op <;> simp_all
    cases hp : s.pc with
    | u0 =>
      rcases hx with hx | hx
      · have hr : s.request = none := by simp [State.request, hx, State.microRequest, hp]
        simp [step, State.fetch, State.internalStep, State.delayStep, hx, hr, hp] at h
      · by_cases hci : s.ci < s.tlen
        · cases he : s.tbl[s.ci]? with
          | none =>
            simp [step, State.fetch, State.currentEntry?, State.internalStep, State.delayStep, hx, hp, hci, he] at h
          | some e =>
            rw [step_entry hx hp hci he] at h; cases h
            exact .inl ⟨hx, rfl, hci, e, rfl, rfl⟩
        · have : step s = .next { s with res := .ok, op := .none } := by
            simp [step, State.fetch, State.currentEntry?, State.internalStep, hx, hp, hci, State.tableLoop]
          rw [this] at h; cases h
          exact .inr (.inl ⟨hx, rfl, hci, by simp [hp]⟩)
    | u1 => have ht : s.inTransaction .u1 := ⟨hx, hp⟩
            rw [step_u1 ht] at h; cases h; simp [ht]
    | u2 => have ht : s.inTransaction .u2 := ⟨hx, hp⟩
            rw [step_u2 ht] at h; cases h; simp [ht]
    | u3 => have ht : s.inTransaction .u3 := ⟨hx, hp⟩
            rw [step_u3 ht] at h; cases h; simp [ht]
    | u4 => have ht : s.inTransaction .u4 := ⟨hx, hp⟩
            rw [step_u4 ht] at h; cases h; simp [ht]
    | u5 => have ht : s.inTransaction .u5 := ⟨hx, hp⟩
            rw [step_u5 ht] at h; cases h; simp [ht]
    | u6 => have ht : s.inTransaction .u6 := ⟨hx, hp⟩
            rw [step_u6 ht] at h; cases h; simp [ht]
    | u7 => have ht : s.inTransaction .u7 := ⟨hx, hp⟩
            rw [step_u7 ht] at h; cases h; simp [ht]
    | u8 => have ht : s.inTransaction .u8 := ⟨hx, hp⟩
            rw [step_u8 ht] at h; cases h; simp [ht]
    | u9 => have ht : s.inTransaction .u9 := ⟨hx, hp⟩
            rw [step_u9 ht] at h; cases h; simp [ht]
    | u10 =>
      have ht : s.inTransaction .u10 := ⟨hx, hp⟩
      cases hb : s.pay[s.bi.toNat]? with
      | none =>
        have hr : s.request = none := by rw [State.request_transaction ht]; simp [State.microRequest, hp, hb]
        rcases hx with hx | hx <;>
          simp [step, State.fetch, State.internalStep, State.delayStep, hx, hr, hp] at h
      | some b => rw [step_u10 ht hb] at h; cases h; simp [ht]
    | u11 => have ht : s.inTransaction .u11 := ⟨hx, hp⟩
             rw [step_u11 ht] at h; cases h; simp [ht]
    | u12 => have ht : s.inTransaction .u12 := ⟨hx, hp⟩
             rw [step_u12 ht] at h; cases h; simp [ht]
    | u13 => have ht : s.inTransaction .u13 := ⟨hx, hp⟩
             rw [step_u13 ht] at h; cases h; simp [ht]

/-! ## Runs -/

/-- Runs compose. -/
theorem runFor_add {j : Nat} (k : Nat) {s t : State} (h : runFor j s = .next t) : runFor (j + k) s = runFor k t := by
  induction j generalizing s with
  | zero => cases h; rw [Nat.zero_add]
  | succ j ih =>
    rw [Nat.succ_add]
    simp only [runFor] at h ⊢
    cases hs : step s with
    | next u => rw [hs] at h; exact ih h
    | fault f => rw [hs] at h; cases h
    | refused r => rw [hs] at h; cases h

/-- A run of one step and then more. -/
theorem runFor_step {s t : State} (k : Nat) (h : step s = .next t) : runFor (k + 1) s = runFor k t := by
  simp [runFor, h]
end Sys2Proof.Machine
end

