-- ==== Sys2Proof/Tests/Slice0.lean ====
section
/-! SUPPORT. The model's own tests: decoding of words written out from the spec, the well-formedness smoke tests, one
step of each instruction on a small state, and for each statement with hypotheses a witness that meets them all.
Expected results are the spec's: its vectors (95_test_vectors.md) and the examples in its rules. -/

namespace Sys2Proof.Tests

open Sys2Proof.Machine

/-! ## Helpers -/

/-- Parameters as in the conventions of 95_test_vectors.md: CON_ENABLE = 0x8600, with POLL_BOUND = 3. -/
def par3 : Params :=
  { baseWord := 0x400, conEnable := 0x2180, settleCycles := 8, pollBound := some ⟨3, by decide⟩
    onL := 0x06, onH := 0x07, offL := 0x08, offH := 0x09 }

/-- The same with POLL_BOUND = none. -/
def parNone : Params := { par3 with pollBound := none }

/-- Idle and configured. -/
def idle : State := { State.reset with par := par3, cfgd := true }

/-- XFER(0x40, [0x00, 0x11]) at a micro-step. -/
def xferAt (pc : MicroPc) : State :=
  { idle with op := .xfer, sa := 0x40, pay := [0x00, 0x11], cnt := 2, pc := pc }

/-- The same at a poll, with the answers to come and the failed reads so far. -/
def pollAt (pc : MicroPc) (pk : Nat) (answers : List Word) : State :=
  { xferAt pc with pk := pk, answers := answers }

/-- RUNTABLE([(0x00,0x11),(0xFE,0x79)], 0x40) at a micro-step of an entry. -/
def tableAt (pc : MicroPc) (ci : Nat) : State :=
  { idle with
    op := .runtable, sa := 0x40, tbl := [⟨0x00, 0x11⟩, ⟨0xFE, 0x79⟩], tlen := 2, ci := ci
    pay := [0x00, 0x11], cnt := 2, pc := pc }

/-- CFGBUS(3, 9, 9) with `cs` writes issued. -/
def cfgAt (cs : BitVec 2) : State := { idle with op := .cfgbus, cfgd := false, cfg := ⟨3, 9, 9⟩, cs := cs }

/-- A field of the next state. -/
def after {α : Type} (o : Host.Outcome State Fault Refusal) (f : State → α) : Option α :=
  match o with
  | .next t => some (f t)
  | .fault _ => none
  | .refused _ => none

/-- The reason of a refusal. -/
def refusal (o : Host.Outcome State Fault Refusal) : Option Refusal :=
  match o with
  | .next _ => none
  | .fault _ => none
  | .refused r => some r

/-- A poll that passes at its first read. -/
def atOnce (v : Word) : PollAnswers := { fails := [], last := v }

theorem atOnce_passes {par : Params} {p : PollSpec} {v : Word} (h : v.getLsbD p.bit = p.want) :
    (atOnce v).Passes par p :=
  ⟨fun _ hv => absurd hv List.not_mem_nil, h, fun b _ => b.property⟩

/-! ## Well-formedness: one ill-formed term for each check -/

theorem test_illFormed_address : WellFormed (.xfer 0x80 1 [0x00]) = false := by decide
theorem test_illFormed_noByte : WellFormed (.xfer 0x40 0 []) = false := by decide
theorem test_illFormed_tooMany : WellFormed (.xfer 0x40 65536 [0x00]) = false := by decide
theorem test_illFormed_lengthDiffers : WellFormed (.xfer 0x40 2 [0x00]) = false := by decide
theorem test_illFormed_tableAddress : WellFormed (.runtable 0xC0 0 []) = false := by decide
theorem test_illFormed_tableLength : WellFormed (.runtable 0x40 2 [⟨0x00, 0x11⟩]) = false := by decide
theorem test_illFormed_readUnmapped : WellFormed (.read 0x00) = false := by decide
theorem test_illFormed_readOfRow : WellFormed (.read 0x90) = false ∧ WellFormed (.read 0x24) = false := by decide
theorem test_illFormed_writeUnmapped : WellFormed (.write 0xA0 0) = false := by decide
theorem test_illFormed_writeOfRow :
    WellFormed (.write 0x10 0x2) = false ∧ WellFormed (.write 0x24 0x10) = false ∧
    WellFormed (.write 0x94 0x41) = false ∧ WellFormed (.write 0x98 0xFFFF) = false ∧
    WellFormed (.write 0x9C 0xFF) = false ∧ WellFormed (.write 0xA4 0x8603) = false ∧
    WellFormed (.write 0xAC 0x7F) = false ∧ WellFormed (.write 0xB0 0) = false ∧
    WellFormed (.write 0xB4 0) = false ∧ WellFormed (.write 0xB8 0) = false := by decide
theorem test_illFormed_modifyUnmapped : WellFormed (.modify 0xFF 0 0) = false := by decide
theorem test_wellFormed :
    WellFormed (.xfer 0x7F 1 [0xFF]) = true ∧ WellFormed (.runtable 0x00 0 []) = true ∧
    WellFormed (.read 0x98) = true ∧ WellFormed (.write 0x98 0x10000) = true ∧
    WellFormed (.write 0xAC 0x80) = true ∧ WellFormed (.modify 0xA4 1 1) = true := by decide

/-! ## Decoding: words written out from the spec -/

/-- R104, R153, R105, R154, R155: `{W, OFF, DATA}` of the rows without a free field. -/
theorem test_decode_fixed :
    decode (.rb 0x11000000002) = .ok .srst ∧ decode (.rb 0x02400000000) = .ok .rdIrqraw ∧
    decode (.rb 0x12400000010) = .ok .clrXrdy ∧ decode (.rb 0x09000000000) = .ok .rdSyss ∧
    decode (.rb 0x19400000041) = .ok .wrBuf := by decide

/-- T1 and T3: WR.SA 0x40 and 0x7F, WR.CNT 2 and 1, WR.DATA 0x11 and 0xFF; T5f: WR.CNT 65535. -/
theorem test_decode_transaction :
    decode (.rb 0x1AC00000040) = .ok (.wrSa 0x40) ∧ decode (.rb 0x1AC0000007F) = .ok (.wrSa 0x7F) ∧
    decode (.rb 0x19800000002) = .ok (.wrCnt 2) ∧ decode (.rb 0x1980000FFFF) = .ok (.wrCnt 65535) ∧
    decode (.rb 0x19C00000011) = .ok (.wrData 0x11) ∧ decode (.rb 0x19C000000FF) = .ok (.wrData 0xFF) ∧
    decode (.rb 0x1A400008603) = .ok (.wrCon 0x2180) := by decide

/-- B1 and B3: the three writes of CFGBUS. -/
theorem test_decode_config :
    decode (.rb 0x1B000000003) = .ok (.wrPsc 3) ∧ decode (.rb 0x1B400000009) = .ok (.wrScll 9) ∧
    decode (.rb 0x1B800000009) = .ok (.wrSclh 9) ∧ decode (.rb 0x1B0FFFFFFFF) = .ok (.wrPsc 0xFFFFFFFF) := by decide

/-- R102 and P1: (0x00,0x11) = 0x0011, (0xFE,0x79) = 0xFE79, (0x01,0x04) = 0x0104. -/
theorem test_decode_entries :
    decode (.ce 0x0011) = .ok (.regwr 0x00 0x11) ∧ decode (.ce 0xFE79) = .ok (.regwr 0xFE 0x79) ∧
    decode (.ce 0x0104) = .ok (.regwr 0x01 0x04) := by decide

/-- R103: the four codes. P3 gives the table words. -/
theorem test_decode_commands :
    decode (.hc 0 {}) = .error .noOperation ∧
    decode (.hc 1 { psc := 3, scll := 9, sclh := 10 }) = .ok (.cfgbus 3 9 10) ∧
    decode (.hc 2 { sa := 0x40, n := 2, payload := [0x00, 0x11] }) = .ok (.xfer 0x40 2 [0x00, 0x11]) ∧
    decode (.hc 3 { sa := 0x40, tlen := 2, table := [0x0600, 0x0832] })
      = .ok (.runtable 0x40 2 [⟨0x06, 0x00⟩, ⟨0x08, 0x32⟩]) := by decide

/-- R101, R106: a request that is none of the twelve falls back to READ or WRITE; MODIFY is a pair to one offset. -/
theorem test_decode_primitives :
    decode (.rb 0x0A400000000) = .ok (.read 0xA4) ∧ decode (.rb 0x12400000000) = .ok (.write 0x24 0) ∧
    decode (.rb 0x1AC00000080) = .ok (.write 0xAC 0x80) ∧
    decode (.pair 0x0A400000000 0x1A400000005 0x0000000F) = .ok (.modify 0xA4 0x0000000F 0x00000005) := by decide

/-- R101: a read request carries DATA zero; R133: a pair is a read and a write of one offset. -/
theorem test_decode_refused :
    decode (.rb 0x02400000001) = .error .readWithData ∧
    decode (.pair 0x0A400000000 0x1A800000005 0) = .error .notAModifyPair ∧
    decode (.pair 0x1A400000000 0x1A400000005 0) = .error .notAModifyPair := by decide

/-- R101, R102: the words an encoder writes. -/
theorem test_encode :
    encode (.wrSa 0x40) = .rb 0x1AC00000040 ∧ encode (.wrCon 0x2180) = .rb 0x1A400008603 ∧
    encode (.regwr 0xFE 0x79) = .ce 0xFE79 ∧ encode .rdSyss = .rb 0x09000000000 := by decide

/-- The opcode table's own numbers, through the host's entry. -/
theorem test_decode_tableWords :
    decodeTableWord 48 0x12400000010 = some .clrXrdy ∧ decodeTableWord 48 0x1A400000003 = some (.wrCon 0) ∧
    decodeTableWord 16 0x0000 = some (.regwr 0x00 0x00) ∧ decodeTableWord 8 0x1 = some (.cfgbus 0 0 0) ∧
    decodeTableWord 8 0x3 = some (.runtable 0 0 []) := by decide

/-! ## One step of each instruction -/

/-- R153. -/
theorem test_srst : after (exec .srst (xferAt .u1)) (fun t => (t.pc, t.pk, t.trace)) =
    some (.u2, 0, [.write 0x10 0x00000002]) := by decide

/-- Q7, second answer: bit 0 set passes, bit 1 is ignored. -/
theorem test_rdSyss_pass : after (exec .rdSyss (pollAt .u2 1 [0x3])) (fun t => (t.pc, t.pk, t.trace)) =
    some (.u3, 1, [.read 0x90 0x00000003]) := by decide

/-- E1: the third failed read of POLL_BOUND = 3. -/
theorem test_rdSyss_timeout :
    after (exec .rdSyss (pollAt .u2 2 [0xFFFFFFFE])) (fun t => (t.pc, t.op, t.res, t.fidx, t.frames)) =
    some (.u0, .none, .timeout .reset, 0, []) := by decide

/-- R155. -/
theorem test_wrBuf : after (exec .wrBuf (xferAt .u3)) (fun t => (t.pc, t.trace, t.ctrl.txBytes)) =
    some (.u4, [.write 0x94 0x00000041], []) := by decide

/-- R156: SA = 0x40 gives `W 0xAC 0x00000040`. -/
theorem test_wrSa : after (exec (.wrSa 0x40) (xferAt .u4)) (fun t => (t.pc, t.trace, t.ctrl.slaveAddr)) =
    some (.u5, [.write 0xAC 0x00000040], 0x00000040) := by decide

/-- R157, R54: N = 2 gives `W 0x98 0x00000002` and loads the counter. -/
theorem test_wrCnt : after (exec (.wrCnt 2) (xferAt .u5)) (fun t => (t.pc, t.trace, t.ctrl.byteCounter)) =
    some (.u6, [.write 0x98 0x00000002], 2) := by decide

/-- R158: an answer 0x00000110 passes and an answer 0x00001000 does not. -/
theorem test_rdIrqraw_busFree :
    after (exec .rdIrqraw (pollAt .u6 0 [0x00000110])) (fun t => t.pc) = some .u7 ∧
    after (exec .rdIrqraw (pollAt .u6 0 [0x00001000])) (fun t => (t.pc, t.pk)) = some (.u6, 1) := by decide

/-- E3: the last failed read at u9, after the arm write; Q10: the completion of the last entry of a table. -/
theorem test_rdIrqraw_ends :
    after (exec .rdIrqraw (pollAt .u9 2 [0x00001100])) (fun t => (t.pc, t.res, t.frames)) =
      some (.u0, .timeout .transmitReady, [.unknown 0x40]) ∧
    after (exec .rdIrqraw { tableAt .u13 1 with answers := [0x100] }) (fun t => (t.op, t.res, t.ci, t.frames)) =
      some (.none, .ok, 2, [.frame 0x40 [0x00, 0x11]]) := by decide

/-- T1: `W 0xA4 0x00008603`. -/
theorem test_wrCon : after (exec (.wrCon 0x2180) (xferAt .u7)) (fun t => (t.pc, t.trace, t.ctrl.framing)) =
    some (.u8, [.write 0xA4 0x00008603], true) := by decide

/-- R188: BI = 1 gives `W 0x9C 0x00000011`; the byte index stays. -/
theorem test_wrData : after (exec (.wrData 0x11) { xferAt .u10 with bi := 1 }) (fun t => (t.pc, t.bi, t.trace)) =
    some (.u11, 1, [.write 0x9C 0x00000011]) := by decide

/-- R83: the data register is no longer empty; R36: seen ready, it is. -/
theorem test_dataEmpty :
    after (exec (.wrData 0x00) (xferAt .u10)) (fun t => t.ctrl.dataEmpty) = some false ∧
    after (exec .rdIrqraw (pollAt .u9 0 [0x10])) (fun t => t.ctrl.dataEmpty) = some true := by decide

/-- T1: BI becomes 1 and the loop goes on; then BI becomes 2 = CNT and the loop ends. -/
theorem test_clrXrdy_loop :
    after (exec .clrXrdy (xferAt .u12)) (fun t => (t.pc, t.bi)) = some (.u9, 1) ∧
    after (exec .clrXrdy { xferAt .u12 with bi := 1 }) (fun t => (t.pc, t.bi)) = some (.u13, 2) := by decide

/-- R111: no other status bit is cleared. -/
theorem test_clrXrdy_flag :
    after (exec .clrXrdy { xferAt .u12 with ctrl := { Controller.powerOn with irqStatusRaw := 0x1110 } })
      (fun t => t.ctrl.irqStatusRaw) = some 0x1100 := by decide

/-- B1, the three writes of CFGBUS(3, 9, 9). -/
theorem test_wrPsc : after (exec (.wrPsc 3) (cfgAt 0)) (fun t => (t.cs, t.op, t.trace)) =
    some (1, .cfgbus, [.write 0xB0 0x00000003]) := by decide
theorem test_wrScll : after (exec (.wrScll 9) (cfgAt 1)) (fun t => (t.cs, t.op, t.trace)) =
    some (2, .cfgbus, [.write 0xB4 0x00000009]) := by decide
theorem test_wrSclh : after (exec (.wrSclh 9) (cfgAt 2)) (fun t => (t.cfgd, t.res, t.op, t.trace)) =
    some (true, .ok, .none, [.write 0xB8 0x00000009]) := by decide

/-- R205, R24. -/
theorem test_regwr : after (exec (.regwr 0xFE 0x79) (tableAt .u0 1)) (fun t => (t.pay, t.cnt, t.pc, t.trace)) =
    some ([0xFE, 0x79], 2, .u1, []) := by decide

/-- B3 accepted whole; B4 refused. -/
theorem test_cfgbus :
    after (exec (.cfgbus 0xFFFFFFFF 1 2) idle) (fun t => (t.op, t.cfg, t.cs, t.trace)) =
      some (.cfgbus, ⟨0xFFFFFFFF, 1, 2⟩, 0, []) ∧
    refusal (exec (.cfgbus 3 9 9) (xferAt .u1)) = some .busy := by decide

/-- R151. -/
theorem test_xfer : after (exec (.xfer 0x40 2 [0x00, 0x11]) idle) (fun t => (t.op, t.sa, t.cnt, t.pay, t.pc)) =
    some (.xfer, 0x40, 2, [0x00, 0x11], .u1) := by decide

/-- T5a to T5d. -/
theorem test_xfer_refused :
    refusal (exec (.xfer 0x40 1 [0x00]) (tableAt .u0 0)) = some .busy ∧
    refusal (exec (.xfer 0x40 1 [0x00]) { idle with cfgd := false }) = some .notConfigured ∧
    refusal (exec (.xfer 0x80 1 [0x00]) idle) = some .address ∧
    refusal (exec (.xfer 0x40 0 []) idle) = some .length := by decide

/-- Q11: an empty table is done at once. -/
theorem test_runtable_empty : after (exec (.runtable 0x40 0 []) idle) (fun t => (t.op, t.res, t.ci, t.trace)) =
    some (.none, .ok, 0, []) := by decide

/-- Q13 to Q15. -/
theorem test_runtable_refused :
    refusal (exec (.runtable 0x40 1 [⟨0x00, 0x11⟩]) { idle with cfgd := false }) = some .notConfigured ∧
    refusal (exec (.runtable 0xC0 1 [⟨0x00, 0x11⟩]) idle) = some .address ∧
    refusal (exec (.runtable 0x40 0 []) (xferAt .u6)) = some .busy := by decide

/-- I1. -/
theorem test_read : after (exec (.read 0x90) { idle with answers := [0x1] }) (fun t => t.trace) =
    some [.read 0x90 0x00000001] := by decide

/-- I5: a written 0 does not clear XRDY; I4: a written 1 does, and BF stays. -/
theorem test_write_irq :
    after (exec (.write 0x24 0x0) { idle with ctrl := { Controller.powerOn with irqStatusRaw := 0x10 } })
      (fun t => t.ctrl.txReady) = some true ∧
    after (exec (.write 0x24 0x10) { idle with ctrl := { Controller.powerOn with irqStatusRaw := 0x110 } })
      (fun t => (t.ctrl.txReady, t.ctrl.transferComplete)) = some (false, true) := by decide

/-- I6 and I8: the read, and the word that is due. -/
theorem test_modify :
    after (exec (.modify 0xA4 0x0000000F 0x00000005) { idle with answers := [0x000000F0] })
      (fun t => (t.trace, t.modifying)) = some ([.read 0xA4 0x000000F0], some ⟨.control, 0x000000F5⟩) ∧
    after (exec (.modify 0x98 0xFFFFFFFF 0xDEADBEEF) { idle with answers := [0x12345678] })
      (fun t => (t.trace, t.modifying)) = some ([.read 0x98 0x12345678], some ⟨.byteCount, 0xDEADBEEF⟩) := by decide

/-- I6: the write, before anything HOST presents next; R278: every flag that was read as 1 is cleared. -/
theorem test_modify_write :
    after (step { idle with modifying := some ⟨.control, 0x000000F5⟩, hostIn := [.hc 1 {}] })
      (fun t => (t.trace, t.modifying, t.op)) = some ([.write 0xA4 0x000000F5], none, .none) ∧
    after (exec (.write 0x24 0x1110) { idle with ctrl := { Controller.powerOn with irqStatusRaw := 0x1110 } })
      (fun t => t.ctrl.irqStatusRaw) = some 0x0000 := by decide

/-! ## The step -/

/-- R160: the delay after arming, through `step`. -/
theorem test_step_settle : after (step (xferAt .u8)) (fun t => (t.pc, t.bi, t.trace)) = some (.u9, 0, [.settle]) := by
  decide

/-- R203: the step takes the entry that is due; T1: the step issues the address write. -/
theorem test_step_fetches :
    after (step (tableAt .u0 1)) (fun t => (t.pay, t.pc)) = some ([0xFE, 0x79], .u1) ∧
    after (step (xferAt .u4)) (fun t => t.trace) = some [.write 0xAC 0x00000040] := by decide

/-- R261: a command that HOST presents to the machine out of reset is taken; HC code 00 asks for nothing. -/
theorem test_step_command :
    after (step { State.reset with hostIn := [.hc 1 { psc := 3, scll := 9, sclh := 9 }] })
      (fun t => (t.op, t.cfg, t.hostIn)) = some (.cfgbus, ⟨3, 9, 9⟩, []) ∧
    after (step { State.reset with hostIn := [.hc 0 {}] }) (fun t => (t.op, t.hostIn)) = some (.none, []) := by decide

/-- T1, whole: the events R162 gives for N = 2. -/
theorem test_events_T1 :
    transactionEvents par3 0x40 [(0x00, atOnce 0x10), (0x11, atOnce 0x10)] (atOnce 0x1) (atOnce 0x0) (atOnce 0x100) =
      [.write 0x10 0x00000002, .read 0x90 0x00000001, .write 0x94 0x00000041, .write 0xAC 0x00000040,
       .write 0x98 0x00000002, .read 0x24 0x00000000, .write 0xA4 0x00008603, .settle,
       .read 0x24 0x00000010, .write 0x9C 0x00000000, .settle, .write 0x24 0x00000010,
       .read 0x24 0x00000010, .write 0x9C 0x00000011, .settle, .write 0x24 0x00000010,
       .read 0x24 0x00000100] := by decide

/-- S2 and R219: the servo table for 0 degrees. -/
theorem test_servo : servoTable par3 0 = some [⟨0x06, 0x00⟩, ⟨0x07, 0x00⟩, ⟨0x08, 0x32⟩, ⟨0x09, 0x01⟩] ∧
    servoTable par3 45 = none := by decide

/-- B6: 48 MHz with PSC = 3 gives 12 MHz. -/
theorem test_moduleClock : moduleClock 48000000 3 = 12000000 := by
  have h : (3 : Word).toNat = 3 := rfl
  simp only [moduleClock, h]
  norm_num

/-! ## Witnesses: states and operands that meet the hypotheses of each statement -/

theorem witness_decodeOfEncode :
    WellFormed (.xfer 0x7F 1 [0xFF]) = true ∧ WellFormed (.runtable 0x40 1 [⟨0xAA, 0xAA⟩]) = true ∧
    WellFormed (.read 0xB8) = true ∧ WellFormed (.write 0x10 0) = true ∧ WellFormed (.modify 0x10 0 0) = true ∧
    WellFormed (.wrCon 0) = true := by decide

theorem witness_encodeOfDecoded : decode (.rb 0x1AC00000080) = .ok (.write 0xAC 0x80) := by decide

theorem witness_stepRunsDecoded :
    ((xferAt .u4).fetch = some (.rb 0x1AC00000040) ∧ decode (.rb 0x1AC00000040) = .ok (.wrSa 0x40) ∧
      (xferAt .u4).op ≠ .none) ∧
    ({ idle with hostIn := [.rb 0x0A400000000] }.fetch = some (.rb 0x0A400000000) ∧
      decode (.rb 0x0A400000000) = .ok (.read 0xA4) ∧ idle.op = .none) := by decide

theorem witness_fetch :
    idle.op = .none ∧
    ((tableAt .u0 1).op = .runtable ∧ (tableAt .u0 1).pc = .u0 ∧ (tableAt .u0 1).ci < (tableAt .u0 1).tlen ∧
      (tableAt .u0 1).tbl[(tableAt .u0 1).ci]? = some ⟨0xFE, 0x79⟩) ∧
    ((xferAt .u1).op ≠ .none ∧ ¬ ((xferAt .u1).op = .runtable ∧ (xferAt .u1).pc = .u0)) := by decide

theorem witness_idle : idle.op = .none ∧ idle.modifying = none ∧ idle.hostIn = [] := by decide

theorem witness_modifying : { idle with modifying := some ⟨.control, 5⟩ }.modifying = some ⟨.control, 5⟩ := rfl

/-- A transaction at every micro-step, started by an XFER and by a table entry. -/
theorem witness_inTransaction (pc : MicroPc) : (xferAt pc).inTransaction pc ∧ (tableAt pc 0).inTransaction pc :=
  ⟨⟨.inl rfl, rfl⟩, ⟨.inr rfl, rfl⟩⟩

/-- The two failing clauses of a poll: a read with budget left (POLL_BOUND = 3, no failed read yet) and the last
allowed read (two failed reads); with POLL_BOUND = none no read is the last. -/
theorem witness_lastRead (pc : MicroPc) (a : List Word) :
    ¬ (pollAt pc 1 a).lastRead ∧ (pollAt pc 2 a).lastRead ∧ ¬ { pollAt pc 2 a with par := parNone }.lastRead := by
  refine ⟨?_, ⟨⟨3, by decide⟩, rfl, Nat.le_refl 3⟩, ?_⟩
  · rintro ⟨b, hb, hk⟩
    cases hb
    exact absurd hk (show ¬ 3 ≤ 1 + 1 by decide)
  · rintro ⟨b, hb, -⟩
    cases hb

/-- The answers that pass and fail the reset poll, on the last allowed read. -/
theorem witness_resetPoll :
    (pollAt .u2 2 [0x1]).answer.getLsbD 0 = true ∧ (pollAt .u2 2 [0x0]).answer.getLsbD 0 = false := by decide

theorem witness_busPoll :
    (pollAt .u6 2 [0xFFFFEFFF]).answer.getLsbD 12 = false ∧ (pollAt .u6 2 [0x1000]).answer.getLsbD 12 = true := by
  decide

theorem witness_readyPoll :
    (pollAt .u9 2 [0x10]).answer.getLsbD 4 = true ∧ (pollAt .u9 2 [0x0]).answer.getLsbD 4 = false := by decide

/-- The completion poll of an XFER, and of a table entry that is not the last, and that is. -/
theorem witness_completionPoll :
    (pollAt .u13 2 [0x100]).op = .xfer ∧ (pollAt .u13 2 [0x100]).pc = .u13 ∧
    (pollAt .u13 2 [0x100]).answer.getLsbD 8 = true ∧ (pollAt .u13 2 [0x1010]).answer.getLsbD 8 = false ∧
    (tableAt .u13 0).op = .runtable ∧ (tableAt .u13 0).pc = .u13 ∧
    (tableAt .u13 0).ci + 1 < (tableAt .u13 0).tlen ∧ ¬ (tableAt .u13 1).ci + 1 < (tableAt .u13 1).tlen := by decide

theorem witness_wrData :
    (xferAt .u10).pay[(xferAt .u10).bi.toNat]? = some 0x00 ∧
    { xferAt .u10 with ctrl := { Controller.powerOn with byteCounter := 2 } }.ctrl.byteCounter ≠ 0 := by decide

theorem witness_clrXrdy :
    (xferAt .u12).bi.toNat < (xferAt .u12).cnt.toNat ∧
    { xferAt .u12 with bi := 65534, cnt := 65535 }.bi.toNat < (65535 : BitVec 16).toNat := by decide

theorem witness_configWrites :
    (cfgAt 0).op = .cfgbus ∧ (cfgAt 0).cs = 0 ∧ (cfgAt 1).cs = 1 ∧ (cfgAt 2).cs = 2 := by decide

/-- The boundary values of R151: address 0x7F with one byte, and 65535 bytes (T5f). -/
theorem witness_xferAccepted :
    idle.op = .none ∧ idle.cfgd = true ∧ (0x7F ≤ 0x7F) ∧ 1 ≤ 1 ∧ 1 ≤ 65535 ∧ [(0xFF : Byte)].length = 1 ∧
    (List.replicate 65535 (0x00 : Byte)).length = 65535 := by
  refine ⟨rfl, rfl, by decide, by decide, by decide, rfl, List.length_replicate⟩

/-- Each clause of the refusals of XFER, at its boundary (T5a to T5e). -/
theorem witness_xferRefused :
    (tableAt .u0 0).op ≠ .none ∧ ({ idle with cfgd := false }.op = .none ∧ { idle with cfgd := false }.cfgd = false) ∧
    (idle.op = .none ∧ idle.cfgd = true ∧ 0x7F < 0x80) ∧
    ¬ (1 ≤ 0 ∧ 0 ≤ 65535 ∧ ([] : List Byte).length = 0) ∧ ¬ (1 ≤ 65536 ∧ 65536 ≤ 65535) := by decide

/-- RUNTABLE with an entry and empty; each refusal at its boundary. -/
theorem witness_runtable :
    idle.op = .none ∧ idle.cfgd = true ∧ [(⟨0x00, 0x11⟩ : CommandEntry)] ≠ [] ∧ ([] : List CommandEntry) = [] ∧
    (xferAt .u6).op ≠ .none ∧ { idle with cfgd := false }.cfgd = false ∧ 0x7F < 0x80 ∧
    ([] : List CommandEntry).length ≠ 1 := by decide

theorem witness_regwr :
    (tableAt .u0 1).op = .runtable ∧ (tableAt .u0 1).pc = .u0 ∧ (tableAt .u0 1).ci < (tableAt .u0 1).tlen := by decide

theorem witness_unmapped : ∀ r : CtrlReg, r.offset ≠ 0x28 := by
  intro r
  cases r <;> decide

theorem witness_clearByWrite :
    (0x1110 : Word).getLsbD 4 = true ∧ (0x1110 : Word).getLsbD 8 = true ∧ (0x1110 : Word).getLsbD 12 = true ∧
    (0x0 : Word).getLsbD 4 = false := by decide

theorem witness_competing :
    (xferAt .u4).op ≠ .none ∧ isSequencerRequest .wrBuf = true ∧ encode .wrBuf = .rb 0x19400000041 ∧
    (xferAt .u4).request.map Request.word ≠ some 0x19400000041 := by decide

theorem witness_outOfPlace :
    (xferAt .u4).op ≠ .none ∧ ¬ ((tableAt .u4 0).op = .runtable ∧ (tableAt .u4 0).pc = .u0 ∧
      (tableAt .u4 0).ci < (tableAt .u4 0).tlen) := by decide

theorem witness_withoutInstruction :
    { idle with hostIn := [.rb 0x02400000001] }.hostIn = .rb 0x02400000001 :: [] ∧ idle.op = .none ∧
    (0x02400000001 : RbWord).getLsbD 40 = false ∧ (0x02400000001 : RbWord).extractLsb' 0 32 ≠ 0 ∧
    ¬ isModifyPair 0x0A400000000 0x1A800000005 ∧ ¬ isModifyPair 0x1A400000000 0x1A400000005 ∧
    ¬ isModifyPair 0x0A400000001 0x1A400000005 ∧ ¬ isModifyPair 0x0A400000000 0x0A400000000 := by
  unfold isModifyPair
  decide

/-- A transaction in the byte loop that meets the invariant: one of two bytes sent, at u10. -/
def running : State :=
  { xferAt .u10 with
    bi := 1
    ctrl :=
      { Controller.powerOn with
        fifoBuffer := 0x41, slaveAddr := 0x40, byteCount := 2, byteCounter := 1, control := 0x8603, framing := true
        txBytes := [0x00], threshold := Config.fifoThreshold, dataEmpty := true } }

theorem running_inv : running.Inv := by
  refine ⟨rfl, by decide, rfl, rfl, ⟨rfl, by decide⟩, ⟨?_, ?_⟩, ?_, ?_⟩
  · intro _ _; decide
  · intro h; cases h
  · intro b _ h; cases h
  · exact ⟨fun _ => ⟨rfl, rfl, rfl⟩, fun _ => rfl, fun _ => ⟨rfl, rfl⟩, fun _ => ⟨rfl, rfl⟩, fun _ => rfl,
      fun h => by rcases h with h | h <;> cases h⟩

/-- The premises of the invariant, of the transition table and of the whole-machine rules, met together. -/
theorem witness_invariant :
    running.Inv ∧ running.op = .xfer ∧ running.op ≠ .none ∧
    ∃ t : State, step running = .next t ∧ t.pc = .u11 ∧ t.ctrl.byteCounter = 0 := by
  refine ⟨running_inv, rfl, by decide, ?_⟩
  exact ⟨{ running.regWrite .data 0x11 with pc := .u11 }, rfl, rfl, rfl⟩

theorem witness_emitted :
    running.request = some (.write .data 0x11) ∧ running.op ≠ .none ∧
    ∃ t : State, step running = .next t ∧ t.trace = running.trace ++ [.write 0x9C 0x11] :=
  ⟨by decide, by decide, _, rfl, rfl⟩

/-- The boundary values of R115's check (R104): the largest data of a row is none, the next is; a read of 0x24 is none, a
read of 0xA4 is; the write of vector I5 is ("I2CMC never issues this"). -/
theorem test_violation :
    (Event.write 0x98 0xFFFF).isViolation = false ∧ (Event.write 0x98 0x10000).isViolation = true ∧
    (Event.write 0x9C 0xFF).isViolation = false ∧ (Event.write 0x9C 0x100).isViolation = true ∧
    (Event.write 0xAC 0x7F).isViolation = false ∧ (Event.write 0xAC 0x80).isViolation = true ∧
    (Event.write 0xA4 0x8603).isViolation = false ∧ (Event.write 0xA4 0x8602).isViolation = true ∧
    (Event.write 0x24 0x10).isViolation = false ∧ (Event.write 0x24 0x0).isViolation = true ∧
    (Event.write 0x90 0x0).isViolation = true ∧ (Event.write 0xB0 0xFFFFFFFF).isViolation = false ∧
    (Event.read 0x24 0x0).isViolation = false ∧ (Event.read 0xA4 0x0).isViolation = true := by decide

/-- A step at which the frame list, the fault index, the micro-pc and the result all change: the last failed read. -/
theorem witness_timeoutStep :
    ∃ t : State, step { tableAt .u9 1 with pk := 2, answers := [0x0] } = .next t ∧
      t.fidx ≠ { tableAt .u9 1 with pk := 2, answers := [0x0] }.fidx ∧ t.pc = .u0 ∧ t.frames = [.unknown 0x40] :=
  ⟨_, rfl, by decide, rfl, rfl⟩

/-- A step at which a host operation is accepted and the result of the last one goes. -/
theorem witness_acceptanceStep :
    ∃ t : State, step { idle with res := .timeout .busBusy, hostIn := [.hc 1 {}] } = .next t ∧ t.res ≠ .timeout .busBusy :=
  ⟨_, rfl, by decide⟩

/-- A transaction starts at u0 and one ends at u0. -/
theorem witness_overlap :
    (∃ t : State, (tableAt .u0 1).Inv ∧ step (tableAt .u0 1) = .next t ∧ t.pc = .u1) ∧
    (∃ t : State, step (pollAt .u13 0 [0x100]) = .next t ∧ t.pc = .u0 ∧ (pollAt .u13 0 [0x100]).pc ≠ .u0) := by
  refine ⟨⟨_, ⟨rfl, rfl, rfl, rfl, by decide, fun h => absurd rfl h⟩, rfl, rfl⟩, ⟨_, rfl, rfl, by decide⟩⟩

/-- Two answers that agree in the tested bit and differ elsewhere. -/
theorem witness_testedBit :
    (pollAt .u6 0 []).inTransaction (pollAt .u6 0 []).pc ∧ (pollAt .u6 0 []).pc.poll? = some pollBb ∧
    (0xFFFFEFFF : Word).getLsbD pollBb.bit = (0x00000000 : Word).getLsbD pollBb.bit ∧
    (∃ t u : State, step { pollAt .u6 0 [] with answers := [0xFFFFEFFF] } = .next t ∧
      step { pollAt .u6 0 [] with answers := [0x00000000] } = .next u) :=
  ⟨⟨.inl rfl, rfl⟩, rfl, by decide, _, _, rfl, rfl⟩

/-- Two machines alike in control that differ in the controller and in what was recorded. -/
theorem witness_sameControl :
    (xferAt .u4).SameControl { xferAt .u4 with ctrl := running.ctrl, frames := [.unknown 0x10], res := .ok } ∧
    (∃ t : State, step (xferAt .u4) = .next t) ∧ step (xferAt .u0) = .fault .noControlPosition ∧
    step { idle with hostIn := [.hc 2 {}] } = .refused .length :=
  ⟨rfl, ⟨_, rfl⟩, rfl, rfl⟩

/-- T1's transaction with T2's first poll: two failed reads, then the pass. -/
theorem witness_transaction :
    { xferAt .u1 with answers := [0x0, 0x0, 0x1, 0x0, 0x10, 0x10, 0x100] }.inTransaction .u1 ∧
    (xferAt .u1).CountInv ∧
    (xferAt .u1).pay = [((0x00 : Byte), atOnce 0x10), (0x11, atOnce 0x10)].map Prod.fst ∧
    TransactionPasses par3 [(0x00, atOnce 0x10), (0x11, atOnce 0x10)] ⟨[0x0, 0x0], 0x1⟩ (atOnce 0x0) (atOnce 0x100) ∧
    [0x0, 0x0, 0x1, 0x0, 0x10, 0x10, 0x100] =
      transactionAnswers [((0x00 : Byte), atOnce 0x10), (0x11, atOnce 0x10)] ⟨[0x0, 0x0], 0x1⟩ (atOnce 0x0)
        (atOnce 0x100) ++ [] := by
  refine ⟨⟨.inl rfl, rfl⟩, ⟨rfl, by decide⟩, rfl,
    ⟨⟨by simp [pollRdone], rfl, ?_⟩, atOnce_passes rfl, ?_, atOnce_passes rfl⟩, rfl⟩
  · intro b hb
    cases hb
    decide
  · simp only [List.forall_mem_cons]
    exact ⟨atOnce_passes rfl, atOnce_passes rfl, fun _ h => absurd h List.not_mem_nil⟩

/-- One entry whose five polls pass at once. -/
def oneRun : EntryRun :=
  { entry := ⟨0x00, 0x11⟩, rst := atOnce 0x1, bus := atOnce 0x0, first := atOnce 0x10, second := atOnce 0x10
    done := atOnce 0x100 }

theorem witness_table :
    { tableAt .u0 0 with par := parNone, tbl := [⟨0x00, 0x11⟩], tlen := 1, answers := [0x1, 0x0, 0x10, 0x10, 0x100] } =
      { tableAt .u0 0 with
        par := parNone, tbl := [oneRun].map EntryRun.entry, tlen := [oneRun].length
        answers := [oneRun].flatMap (fun e => transactionAnswers e.bytes e.rst e.bus e.done) ++ [] } ∧
    (tableAt .u0 0).op = .runtable ∧ (tableAt .u0 0).pc = .u0 ∧ (tableAt .u0 0).ci = 0 ∧ [oneRun] ≠ [] ∧
    ∀ e ∈ [oneRun], TransactionPasses parNone e.bytes e.rst e.bus e.done := by
  refine ⟨rfl, rfl, rfl, rfl, by decide, ?_⟩
  intro e he
  rw [List.mem_singleton.1 he]
  refine ⟨atOnce_passes rfl, atOnce_passes rfl, ?_, atOnce_passes rfl⟩
  simp only [EntryRun.bytes, List.forall_mem_cons]
  exact ⟨atOnce_passes rfl, atOnce_passes rfl, fun _ h => absurd h List.not_mem_nil⟩

theorem witness_cfgbusRun :
    idle.op = .none ∧ idle.modifying = none ∧ (⟨3, 9, 9, 0, 0, [], 0, []⟩ : HcOperands).psc = 3 ∧
    { idle with hostIn := [.hc 1 ⟨3, 9, 9, 0, 0, [], 0, []⟩] }.hostIn = .hc 1 ⟨3, 9, 9, 0, 0, [], 0, []⟩ :: [] :=
  ⟨rfl, rfl, rfl, rfl⟩

/-- Q4: three failing answers with POLL_BOUND = 3. -/
theorem witness_pollTimesOut :
    (pollAt .u9 0 [0x0, 0x0, 0x0]).inTransaction (pollAt .u9 0 [0x0, 0x0, 0x0]).pc ∧
    (pollAt .u9 0 [0x0, 0x0, 0x0]).pc.poll? = some pollXrdy ∧ (pollAt .u9 0 [0x0, 0x0, 0x0]).pk = 0 ∧
    (pollAt .u9 0 [0x0, 0x0, 0x0]).par.pollBound = some ⟨3, by decide⟩ ∧ [(0x0 : Word), 0x0, 0x0].length = 3 ∧
    (∀ v ∈ [(0x0 : Word), 0x0, 0x0], v.getLsbD pollXrdy.bit ≠ pollXrdy.want) :=
  ⟨⟨.inl rfl, rfl⟩, rfl, rfl, rfl, rfl, by simp [pollXrdy]⟩

/-- Q6 and P6: POLL_BOUND = none. -/
theorem witness_unbounded :
    { pollAt .u9 0 [0x0, 0x0] with par := parNone }.inTransaction .u9 ∧
    { pollAt .u9 0 [0x0, 0x0] with par := parNone }.par.pollBound = none ∧
    (∀ v ∈ [(0x0 : Word), 0x0], v.getLsbD pollXrdy.bit ≠ pollXrdy.want) :=
  ⟨⟨.inl rfl, rfl⟩, rfl, by simp [pollXrdy]⟩

theorem witness_servo : angleToOffCount (-90) = some 0x0CC ∧ angleToOffCount 90 = some 0x199 ∧ (-90 : Int) < 90 ∧
    (45 : Int) ≠ 0 ∧ (45 : Int) ≠ 90 ∧ (45 : Int) ≠ -90 := by decide

end Sys2Proof.Tests
end

/-! ## Family 00_scope: what a step does to the parameters and the trace (R10, R13, R74, R80, R81, R85) -/

namespace Sys2Proof.Machine

/-! ### Completion and the poll -/

@[simp] theorem State.transactionDone_par (s : State) : s.transactionDone.par = s.par := by
  unfold State.transactionDone
  cases s.op <;> simp

@[simp] theorem State.transactionDone_trace (s : State) : s.transactionDone.trace = s.trace := by
  unfold State.transactionDone
  cases s.op <;> simp

/-- One step of a poll keeps the parameters when what it does on a pass keeps them. -/
theorem State.poll_par (p : PollSpec) {f : State → State} (s : State) (hf : ∀ u, (f u).par = u.par) :
    (s.poll p f).par = s.par := by
  rcases s.poll_cases p f with ⟨-, h⟩ | ⟨-, -, h⟩ | ⟨-, -, h⟩ <;> simp [h, hf]

/-- One step of a poll shows in the trace as its one read, passed, failed or timed out. -/
theorem State.poll_trace (p : PollSpec) {f : State → State} (s : State) (hf : ∀ u, (f u).trace = u.trace) :
    (s.poll p f).trace = s.trace ++ [.read p.reg.offset s.answer] := by
  rcases s.poll_cases p f with ⟨-, h⟩ | ⟨-, -, h⟩ | ⟨-, -, h⟩ <;> simp [h, hf]

/-! ### The frame of a step -/

/-- From `s` to `t` the parameters stand, and the trace stands or gains one event at its end. -/
inductive State.LogsAtMostOne (s t : State) : Prop where
  | quiet (par : t.par = s.par) (trace : t.trace = s.trace)
  | event (e : Event) (par : t.par = s.par) (trace : t.trace = s.trace ++ [e])

theorem State.LogsAtMostOne.par_eq {s t : State} (h : s.LogsAtMostOne t) : t.par = s.par := by
  cases h <;> assumption

theorem State.LogsAtMostOne.trace_append {s t : State} (h : s.LogsAtMostOne t) :
    ∃ es, t.trace = s.trace ++ es ∧ es.length ≤ 1 := by
  cases h with
  | quiet _ ht => exact ⟨[], by simp [ht], Nat.zero_le 1⟩
  | event e _ ht => exact ⟨[e], ht, Nat.le_refl 1⟩

theorem State.poll_logsAtMostOne (p : PollSpec) {f : State → State} (s : State) (hpar : ∀ u, (f u).par = u.par)
    (htrace : ∀ u, (f u).trace = u.trace) : s.LogsAtMostOne (s.poll p f) :=
  .event _ (s.poll_par p hpar) (s.poll_trace p htrace)

/-- An instruction HOST presents at idle: a primitive logs its request, an acceptance logs nothing. -/
theorem exec_idle_logsAtMostOne {s t : State} {i : Instr} (ho : s.op = .none) (h : exec i s = .next t) :
    s.LogsAtMostOne t := by
  rcases exec_idle_next ho h with ⟨r, rfl⟩ | ⟨r, v, rfl⟩ | ⟨r, m, v, rfl⟩ | ⟨_, _, _, -, rfl⟩ |
    ⟨_, _, _, -, -, -, -, -, -, rfl⟩ | ⟨_, _, _, -, -, -, -, rfl⟩
  · exact .event _ rfl rfl
  · exact .event _ rfl rfl
  · exact .event _ rfl rfl
  · exact .quiet rfl rfl
  · exact .quiet rfl rfl
  · exact .quiet (State.tableLoop_par _) (State.tableLoop_trace _)

theorem step_idle_logsAtMostOne {s t : State} (ho : s.op = .none) (h : step s = .next t) : s.LogsAtMostOne t := by
  rcases step_idle ho with ⟨m, -, hs⟩ | ⟨-, -, hs⟩ | ⟨e, es, -, -, ⟨-, hs⟩ | ⟨i, -, hs⟩ | ⟨r, hs⟩⟩ <;> rw [hs] at h
  · cases h; exact .event _ rfl rfl
  · cases h; exact .quiet rfl rfl
  · cases h; exact .quiet rfl rfl
  · -- taking what HOST presents changes neither the parameters nor the trace
    cases exec_idle_logsAtMostOne (s := { s with hostIn := es }) ho h with
    | quiet hp ht => exact .quiet hp ht
    | event e hp ht => exact .event e hp ht
  · cases h

/-- A step of an operation in progress: the writes, the polls and the delays log one event, the table loop and the exits
none. -/
theorem step_busy_logsAtMostOne {s t : State} (ho : s.op ≠ .none) (h : step s = .next t) : s.LogsAtMostOne t := by
  rcases step_busy_cases ho h with ⟨-, -, rfl⟩ | ⟨-, -, rfl⟩ | ⟨-, -, rfl⟩ | ⟨-, -, rfl⟩ |
    ⟨-, -, -, e, -, rfl⟩ | ⟨-, -, -, rfl⟩ | ⟨-, rfl⟩ | ⟨-, rfl⟩ | ⟨-, rfl⟩ | ⟨-, rfl⟩ | ⟨-, rfl⟩ | ⟨-, rfl⟩ |
    ⟨-, rfl⟩ | ⟨-, rfl⟩ | ⟨-, rfl⟩ | ⟨-, b, -, rfl⟩ | ⟨-, rfl⟩ | ⟨-, rfl⟩ | ⟨-, rfl⟩
  · exact .event _ rfl rfl -- CFGBUS: its three writes, then the exit
  · exact .event _ rfl rfl
  · exact .event _ rfl rfl
  · exact .quiet rfl rfl
  · exact .quiet rfl rfl -- RUNTABLE at u0: an entry, then the exit
  · exact .quiet rfl rfl
  · exact .event _ rfl rfl -- u1
  · exact s.poll_logsAtMostOne pollRdone (fun _ => rfl) (fun _ => rfl)
  · exact .event _ rfl rfl
  · exact .event _ rfl rfl
  · exact .event _ rfl rfl
  · exact s.poll_logsAtMostOne pollBb (fun _ => rfl) (fun _ => rfl) -- u6
  · exact .event _ rfl rfl
  · exact .event _ rfl rfl
  · exact s.poll_logsAtMostOne pollXrdy (fun _ => rfl) (fun _ => rfl) -- u9
  · exact .event _ rfl rfl
  · exact .event _ rfl rfl
  · exact .event _ rfl rfl
  · exact s.poll_logsAtMostOne pollBf State.transactionDone_par State.transactionDone_trace -- u13

theorem step_logsAtMostOne {s t : State} (h : step s = .next t) : s.LogsAtMostOne t := by
  by_cases ho : s.op = .none
  · exact step_idle_logsAtMostOne ho h
  · exact step_busy_logsAtMostOne ho h

/-! ### The obligations -/

/-- Settles O45, by the frame of a step: no step logs more than one event. -/
theorem stepAppendsAtMostOneEvent : Obligations.StepAppendsAtMostOneEvent :=
  fun _ _ h => (step_logsAtMostOne h).trace_append

/-- Settles O47, by the frame of a step: every step keeps the parameters. -/
theorem parametersNeverChange : Obligations.ParametersNeverChange :=
  fun _ _ h => (step_logsAtMostOne h).par_eq

end Sys2Proof.Machine

/-! ## Family 10_state: the state after reset, where instructions come from, and what every step keeps (R20 to R32, R59, R115) -/

namespace Sys2Proof.Machine

/-! ### What SEQ's own writes leave in the controller (R44, R82, R83) -/

theorem Controller.write_fifoCfg (k : Nat) (c : Controller) :
    c.write k .fifoBuffer fifoCfg =
      { c with fifoBuffer := 0x41, txBytes := [], threshold := Config.fifoThreshold } := by
  simp [Controller.write, Controller.writeFifo, fifoCfg]

/-- A zero-extended count is loaded whole: log 8's other case never arises (R54). -/
theorem Controller.write_byteCount_zext32 (k : Nat) (n : BitVec 16) (c : Controller) :
    c.write k .byteCount (zext32 n) = { c with byteCount := zext32 n, byteCounter := n } := by
  have hlt : (zext32 n).toNat < 2 ^ 16 := by
    have := n.isLt
    simp [zext32]
    omega
  have hn : (zext32 n).setWidth 16 = n := by
    apply BitVec.eq_of_getLsbD_eq
    intro i hi
    simp [zext32, hi]
  simp only [Controller.write, Controller.writeByteCount, if_pos hlt, hn]

/-- The arm value has START and STOP both set, so the frame begins (R83, R110). -/
theorem Controller.write_armVal (k : Nat) (p : Params) (c : Controller) :
    c.write k .control (armVal p) = { c with control := conEnableWord p ||| 3, framing := true } := by
  simp [Controller.write, Controller.writeControl, armVal, armWord, conEnableWord]

/-- While the counter is not zero a payload byte runs it down by one (R54, R188). -/
theorem Controller.write_data_zext32 (k : Nat) (b : Byte) {c : Controller} (h : c.byteCounter ≠ 0) :
    c.write k .data (zext32 b) =
      { c with data := zext32 b, byteCounter := c.byteCounter - 1, txBytes := c.txBytes ++ [b], dataEmpty := false } := by
  simp only [Controller.write, Controller.writeData_byte, if_neg h]

theorem Controller.write_xrdyClr (k : Nat) (c : Controller) :
    c.write k .irqStatusRaw xrdyClr = { c with irqStatusRaw := c.irqStatusRaw &&& ~~~xrdyClr } := by
  simp [Controller.write]

@[simp] theorem zext32_toNat {n : Nat} (v : BitVec n) (h : n ≤ 32) : (zext32 v).toNat = v.toNat := by
  simp [zext32, BitVec.toNat_setWidth_of_le h]

/-! ### The invariant of a transaction, micro-step by micro-step (R163) -/

theorem State.TransactionInv.regRead {s : State} (r : CtrlReg) (h : s.TransactionInv) :
    (s.regRead r).TransactionInv := by
  simpa [State.TransactionInv, State.CountInv, State.IndexInv, State.PollInv, State.ControllerInv,
    State.bytesSent] using h

/-- Where a transaction starts it has set nothing up yet. -/
theorem State.TransactionInv.at_u1 {s : State} (hcount : s.CountInv) (hpc : s.pc = .u1) : s.TransactionInv := by
  refine ⟨hcount, ?_, ?_, ?_⟩
  · simp [State.IndexInv, MicroPc.code, hpc]
  · simp [State.PollInv, MicroPc.poll?, hpc]
  · simp [State.ControllerInv, MicroPc.code, hpc]

theorem State.TransactionInv.u1_u2 {s : State} (h : s.TransactionInv) :
    State.TransactionInv { s.regWrite .softReset srstCmd with pc := .u2, pk := 0 } := by
  obtain ⟨hcount, -, -, -⟩ := h
  refine ⟨hcount, ?_, fun b _ _ => b.2, ?_⟩
  · simp [State.IndexInv, MicroPc.code]
  · simp [State.ControllerInv, MicroPc.code]

/-- A pass of the reset poll (R154): nothing is set up yet. -/
theorem State.TransactionInv.u2_u3 {s : State} (h : s.TransactionInv) :
    State.TransactionInv { s with pc := .u3 } := by
  obtain ⟨hcount, -, -, -⟩ := h
  refine ⟨hcount, ?_, ?_, ?_⟩
  · simp [State.IndexInv, MicroPc.code]
  · simp [State.PollInv, MicroPc.poll?]
  · simp [State.ControllerInv, MicroPc.code]

theorem State.TransactionInv.u3_u4 {s : State} (h : s.TransactionInv) :
    State.TransactionInv { s.regWrite .fifoBuffer fifoCfg with pc := .u4 } := by
  obtain ⟨hcount, -, -, -⟩ := h
  refine ⟨hcount, ?_, ?_, ?_⟩
  · simp [State.IndexInv, MicroPc.code]
  · simp [State.PollInv, MicroPc.poll?]
  · simp [State.ControllerInv, MicroPc.code, State.bytesSent, Controller.write_fifoCfg]

theorem State.TransactionInv.u4_u5 {s : State} (hpc : s.pc = .u4) (h : s.TransactionInv) :
    State.TransactionInv { s.regWrite .slaveAddr (zext32 s.sa) with pc := .u5 } := by
  obtain ⟨hcount, -, -, hctrl⟩ := h
  refine ⟨hcount, ?_, ?_, ?_⟩
  · simp [State.IndexInv, MicroPc.code]
  · simp [State.PollInv, MicroPc.poll?]
  · simpa [State.ControllerInv, MicroPc.code, State.bytesSent, hpc, Controller.write] using hctrl

theorem State.TransactionInv.u5_u6 {s : State} (hpc : s.pc = .u5) (h : s.TransactionInv) :
    State.TransactionInv { s.regWrite .byteCount (zext32 s.cnt) with pc := .u6, pk := 0 } := by
  obtain ⟨hcount, -, -, hctrl⟩ := h
  refine ⟨hcount, ?_, fun b _ _ => b.2, ?_⟩
  · simp [State.IndexInv, MicroPc.code]
  · simpa [State.ControllerInv, MicroPc.code, State.bytesSent, hpc, Controller.write_byteCount_zext32] using hctrl

/-- A pass of the bus-busy poll (R158). -/
theorem State.TransactionInv.u6_u7 {s : State} (hpc : s.pc = .u6) (h : s.TransactionInv) :
    State.TransactionInv { s with pc := .u7 } := by
  obtain ⟨hcount, -, -, hctrl⟩ := h
  refine ⟨hcount, ?_, ?_, ?_⟩
  · simp [State.IndexInv, MicroPc.code]
  · simp [State.PollInv, MicroPc.poll?]
  · simpa [State.ControllerInv, MicroPc.code, State.bytesSent, hpc] using hctrl

theorem State.TransactionInv.u7_u8 {s : State} (hpc : s.pc = .u7) (h : s.TransactionInv) :
    State.TransactionInv { s.regWrite .control (armVal s.par) with pc := .u8 } := by
  obtain ⟨hcount, -, -, hctrl⟩ := h
  refine ⟨hcount, ?_, ?_, ?_⟩
  · simp [State.IndexInv, MicroPc.code]
  · simp [State.PollInv, MicroPc.poll?]
  · simpa [State.ControllerInv, MicroPc.code, State.bytesSent, hpc, Controller.write_armVal] using hctrl

/-- The byte loop begins at byte 0, which no payload lacks (R151, R160). -/
theorem State.TransactionInv.u8_u9 {s : State} (hpc : s.pc = .u8) (h : s.TransactionInv) :
    s.settleAfterArm.TransactionInv := by
  obtain ⟨hcount, -, -, hctrl⟩ := h
  have hpos : 0 < s.cnt.toNat := hcount.1 ▸ hcount.2
  refine ⟨hcount, ?_, fun b _ _ => b.2, ?_⟩
  · simpa [State.IndexInv, MicroPc.code] using hpos
  · simpa [State.ControllerInv, MicroPc.code, State.bytesSent, hpc] using hctrl

/-- A pass of the transmit-ready poll: the data register is empty (R187, R192). -/
theorem State.TransactionInv.u9_u10 {s : State} (hpc : s.pc = .u9) (h : s.TransactionInv) :
    State.TransactionInv { s with pc := .u10, ctrl := s.ctrl.readySeen } := by
  obtain ⟨hcount, hindex, -, hctrl⟩ := h
  refine ⟨hcount, ?_, ?_, ?_⟩
  · simpa [State.IndexInv, MicroPc.code, hpc] using hindex
  · simp [State.PollInv, MicroPc.poll?]
  · simpa [State.ControllerInv, MicroPc.code, State.bytesSent, hpc] using hctrl

/-- The counter runs down as the bytes handed over grow by the indexed one (R54, R188). -/
theorem State.TransactionInv.u10_u11 {s : State} {b : Byte} (hpc : s.pc = .u10) (hb : s.pay[s.bi.toNat]? = some b)
    (h : s.TransactionInv) : State.TransactionInv { s.regWrite .data (zext32 b) with pc := .u11 } := by
  obtain ⟨hcount, hindex, -, hctrl⟩ := h
  refine ⟨hcount, ?_, ?_, ?_⟩
  · simpa [State.IndexInv, MicroPc.code, hpc] using hindex
  · simp [State.PollInv, MicroPc.poll?]
  · have hlt : s.bi.toNat < s.cnt.toNat := by simpa [State.IndexInv, MicroPc.code, hpc] using hindex
    have hcode : s.pc.code = 10 := by rw [hpc]; rfl
    have hsent : s.bytesSent = s.bi.toNat := by simp [State.bytesSent, hpc]
    obtain ⟨hbuf, hsa, hcnt, hcon, -, -⟩ := hctrl
    obtain ⟨hfifo, hthr, htx⟩ := hbuf (by omega)
    obtain ⟨hbc, hsum⟩ := hcnt (by omega)
    rw [hsent] at htx hsum
    have hne : s.ctrl.byteCounter ≠ 0 := by bv_omega
    have htake : s.ctrl.txBytes ++ [b] = s.pay.take (s.bi.toNat + 1) := by
      rw [htx, List.take_add_one, hb, Option.toList_some]
    have hdown : (s.ctrl.byteCounter - 1).toNat + (s.bi.toNat + 1) = s.cnt.toNat := by bv_omega
    simpa [State.ControllerInv, MicroPc.code, State.bytesSent, Controller.write_data_zext32 _ _ hne] using
      ⟨⟨hfifo, hthr, htake⟩, hsa (by omega), ⟨hbc, hdown⟩, hcon (by omega)⟩

theorem State.TransactionInv.u11_u12 {s : State} (hpc : s.pc = .u11) (h : s.TransactionInv) :
    s.settleAfterData.TransactionInv := by
  obtain ⟨hcount, hindex, -, hctrl⟩ := h
  refine ⟨hcount, ?_, ?_, ?_⟩
  · simpa [State.IndexInv, MicroPc.code, hpc] using hindex
  · simp [State.PollInv, MicroPc.poll?]
  · simpa [State.ControllerInv, MicroPc.code, State.bytesSent, hpc] using hctrl

/-- The byte index does not wrap, since it is below the count, and leaves the loop equal to it (R171, R191). -/
theorem State.TransactionInv.u12_next {s : State} (hpc : s.pc = .u12) (h : s.TransactionInv) :
    (s.regWrite .irqStatusRaw xrdyClr).nextByte.TransactionInv := by
  obtain ⟨hcount, hindex, -, hctrl⟩ := h
  have hlt : s.bi.toNat < s.cnt.toNat := by simpa [State.IndexInv, MicroPc.code, hpc] using hindex
  have hnowrap : (s.bi.toNat + 1) % 65536 = s.bi.toNat + 1 := by have := s.cnt.isLt; omega
  have hcode : s.pc.code = 12 := by rw [hpc]; rfl
  have hsent : s.bytesSent = s.bi.toNat + 1 := by simp [State.bytesSent, hpc]
  obtain ⟨hfifo, hsa, hcnt, hcon, -, -⟩ := hctrl
  rw [hsent] at hfifo hcnt
  refine ⟨hcount, ?_, fun b _ _ => b.2, ?_⟩
  · by_cases hmore : s.bi.toNat + 1 < s.cnt.toNat
    · simp [State.IndexInv, hnowrap, hmore]
    · have hend : s.bi + 1 = s.cnt := by bv_omega
      simpa [State.IndexInv, MicroPc.code, hnowrap, hmore] using hend
  · by_cases hmore : s.bi.toNat + 1 < s.cnt.toNat <;>
      simpa [State.ControllerInv, MicroPc.code, State.bytesSent, hnowrap, hmore, Controller.write_xrdyClr]
        using ⟨hfifo (by omega), hsa (by omega), hcnt (by omega), hcon (by omega)⟩

/-- A failed read that leaves budget keeps the transaction where it is, its failed reads still below the bound (R182). -/
theorem State.TransactionInv.failedRead {s : State} (h : s.TransactionInv) (r : CtrlReg) (hl : ¬ s.lastRead) :
    State.TransactionInv { s.regRead r with pk := s.pk + 1 } := by
  obtain ⟨hcount, hindex, -, hctrl⟩ := h.regRead r
  refine ⟨hcount, hindex, fun b hb _ => ?_, hctrl⟩
  exact Nat.lt_of_not_le fun hle => hl ⟨b, hb, hle⟩

/-! ### The invariant outside the micro-steps -/

/-- What the invariant says of the operation that runs a transaction, beside the transaction itself. -/
structure State.TransactionOwner (s : State) : Prop where
  noModify : s.modifying = none
  noResult : s.res = .none
  configured : s.cfgd = true
  entry : s.op = .runtable →
    s.tlen = s.tbl.length ∧ s.ci < s.tlen ∧ s.tbl[s.ci]?.map (fun e => [e.reg, e.val]) = some s.pay

/-- The invariant at a micro-step other than u0 is one thing, whichever operation runs the transaction. -/
theorem State.inv_iff_of_inTransaction {s : State} {pc : MicroPc} (h : s.inTransaction pc) (h0 : pc ≠ .u0) :
    s.Inv ↔ s.TransactionOwner ∧ s.TransactionInv := by
  obtain ⟨ho, rfl⟩ := h
  constructor
  · intro hi
    rcases ho with ho | ho <;> simp only [State.Inv, ho] at hi
    · obtain ⟨hm, -, hr, hc, ht⟩ := hi
      exact ⟨⟨hm, hr, hc, by simp [ho]⟩, ht⟩
    · obtain ⟨hm, hr, hc, hlen, hci, hrun⟩ := hi
      exact ⟨⟨hm, hr, hc, fun _ => ⟨hlen, hci, (hrun h0).2⟩⟩, (hrun h0).1⟩
  · rintro ⟨⟨hm, hr, hc, he⟩, ht⟩
    rcases ho with ho | ho <;> simp only [State.Inv, ho]
    · exact ⟨hm, h0, hr, hc, ht⟩
    · obtain ⟨hlen, hci, hpay⟩ := he ho
      exact ⟨hm, hr, hc, hlen, hci, fun _ => ⟨ht, hpay⟩⟩

/-- Idle, the invariant asks only for u0 (R31). -/
theorem State.inv_of_idle {s : State} (ho : s.op = .none) (hp : s.pc = .u0) : s.Inv := by
  simpa [State.Inv, ho] using hp

theorem State.Inv.pc_of_idle {s : State} (h : s.Inv) (ho : s.op = .none) : s.pc = .u0 := by
  simpa [State.Inv, ho] using h

theorem State.inv_raiseTimeout (k : TimeoutKind) (s : State) : (s.raiseTimeout k).Inv :=
  State.inv_of_idle rfl rfl

/-- The registers that say which operation runs, and on what. -/
def State.owner (s : State) :
    HostOp × Option ModifyWrite × OpResult × Bool × Nat × List CommandEntry × Nat × List Byte :=
  (s.op, s.modifying, s.res, s.cfgd, s.tlen, s.tbl, s.ci, s.pay)

theorem State.op_of_owner {s t : State} (hst : t.owner = s.owner) : t.op = s.op :=
  congrArg Prod.fst hst

theorem State.TransactionOwner.of_owner {s t : State} (h : s.TransactionOwner) (hst : t.owner = s.owner) :
    t.TransactionOwner := by
  simp only [State.owner, Prod.mk.injEq] at hst
  obtain ⟨hop, hmod, hres, hcfgd, htlen, htbl, hci, hpay⟩ := hst
  obtain ⟨hm, hr, hc, he⟩ := h
  exact ⟨hmod.trans hm, hres.trans hr, hcfgd.trans hc, by simpa [hop, htlen, htbl, hci, hpay] using he⟩

/-- A micro-step of a transaction keeps the invariant when it leaves the operation alone and keeps the transaction's
part. -/
theorem State.Inv.microStep {s t : State} {pc : MicroPc} (h : s.Inv) (ht : s.inTransaction pc) (h0 : pc ≠ .u0)
    (h0' : t.pc ≠ .u0) (hst : t.owner = s.owner) (hT : s.TransactionInv → t.TransactionInv) : t.Inv := by
  obtain ⟨howner, hs⟩ := (State.inv_iff_of_inTransaction ht h0).1 h
  have htt : t.inTransaction t.pc := ⟨by rw [State.op_of_owner hst]; exact ht.1, rfl⟩
  exact (State.inv_iff_of_inTransaction htt h0').2 ⟨howner.of_owner hst, hT hs⟩

/-- One read of a poll keeps the invariant when its pass does: a failed read stays, and a timeout leaves the machine
idle (R180, R236). -/
theorem State.Inv.poll {s : State} {pc : MicroPc} (p : PollSpec) (f : State → State) (h : s.Inv)
    (ht : s.inTransaction pc) (h0 : pc ≠ .u0) (hpass : (s.regRead p.reg).Inv → (f (s.regRead p.reg)).Inv) :
    (s.poll p f).Inv := by
  have hpc : s.pc ≠ .u0 := ht.2 ▸ h0
  rcases s.poll_cases p f with ⟨-, he⟩ | ⟨-, hl, he⟩ | ⟨-, -, he⟩ <;> rw [he]
  · exact hpass (h.microStep ht h0 hpc rfl (·.regRead _))
  · exact h.microStep ht h0 hpc rfl (·.failedRead _ hl)
  · exact State.inv_raiseTimeout _ _

/-- In the table loop with an entry due (R203). -/
theorem State.inv_entryDue {s : State} (ho : s.op = .runtable) (hp : s.pc = .u0) (hm : s.modifying = none)
    (hr : s.res = .none) (hc : s.cfgd = true) (hlen : s.tlen = s.tbl.length) (hci : s.ci < s.tlen) : s.Inv := by
  simpa [State.Inv, ho, hp, hm, hr, hc] using And.intro hlen hci

/-- The table loop's test at the first entry: an entry is due, or the table is done (R203, R208). -/
theorem State.inv_tableLoop {s : State} (ho : s.op = .runtable) (hp : s.pc = .u0) (hm : s.modifying = none)
    (hr : s.res = .none) (hc : s.cfgd = true) (hlen : s.tlen = s.tbl.length) : s.tableLoop.Inv := by
  by_cases hci : s.ci < s.tlen
  · rw [State.tableLoop_more hci]
    exact State.inv_entryDue ho hp hm hr hc hlen hci
  · rw [State.tableLoop_done hci]
    exact State.inv_of_idle rfl hp

/-- Completion leaves the machine idle, or the table loop with the next entry due (R161, R206). -/
theorem State.Inv.transactionDone {s : State} (h : s.Inv) (ht : s.inTransaction .u13) : s.transactionDone.Inv := by
  obtain ⟨⟨hm, hr, hc, hentry⟩, -⟩ := (State.inv_iff_of_inTransaction ht (by decide)).1 h
  rcases ht.1 with ho | ho
  · rw [State.transactionDone_xfer ho]
    exact State.inv_of_idle rfl rfl
  · by_cases hnext : s.ci + 1 < s.tlen
    · rw [State.transactionDone_more ho hnext]
      exact State.inv_entryDue ho rfl hm hr hc (hentry ho).1 hnext
    · rw [State.transactionDone_last ho hnext]
      exact State.inv_of_idle rfl rfl

/-- A transaction that starts at u1 needs only its owner's part and its count. -/
theorem State.inv_start {s : State} (ht : s.inTransaction .u1) (howner : s.TransactionOwner) (hcount : s.CountInv) :
    s.Inv :=
  (State.inv_iff_of_inTransaction ht (by decide)).2 ⟨howner, .at_u1 hcount ht.2⟩

/-- The transaction of an entry carries its two bytes (R205). -/
theorem State.Inv.startEntry {s : State} {e : CommandEntry} (h : s.Inv) (ho : s.op = .runtable)
    (he : s.tbl[s.ci]? = some e) :
    State.Inv { s with pay := [e.reg, e.val], cnt := 2, pk := 0, pc := .u1 } := by
  simp only [State.Inv, ho] at h
  obtain ⟨hm, hr, hc, hlen, hci, -⟩ := h
  exact State.inv_start ⟨.inr ho, rfl⟩ ⟨hm, hr, hc, fun _ => ⟨hlen, hci, by simp [he]⟩⟩ ⟨rfl, Nat.le_add_left 1 1⟩

/-- CFGBUS keeps a write due until its third (R141). -/
theorem State.Inv.configWrite {s : State} {r : CtrlReg} {v : Word} {n : BitVec 2} (h : s.Inv) (ho : s.op = .cfgbus)
    (hn : n ≠ 3) : State.Inv { s.regWrite r v with cs := n } := by
  simp only [State.Inv, ho] at h
  obtain ⟨hm, hp, -, hr⟩ := h
  simpa [State.Inv, ho, hm, hp, hr] using hn

theorem State.inv_configDone {s : State} (hp : s.pc = .u0) : s.configDone.Inv :=
  State.inv_of_idle rfl hp

theorem State.Inv.pc_of_config {s : State} (h : s.Inv) (ho : s.op = .cfgbus) : s.pc = .u0 := by
  simp only [State.Inv, ho] at h
  obtain ⟨-, hp, -, -⟩ := h
  exact hp

/-- An accepted XFER has a count that is the length of its payload, which is not empty (R151). -/
theorem State.inv_acceptXfer {s : State} {sa n : Nat} {payload : List Byte} (hm : s.modifying = none)
    (hc : s.cfgd = true) (h1 : 1 ≤ n) (hn : n ≤ 65535) (hlen : payload.length = n) :
    State.Inv { s with op := .xfer, res := .none, sa := BitVec.ofNat 7 sa, pay := payload, cnt := BitVec.ofNat 16 n
                       pk := 0, pc := .u1 } := by
  have hcnt : (BitVec.ofNat 16 n).toNat = n := Nat.mod_eq_of_lt (by omega)
  exact State.inv_start ⟨.inl rfl, rfl⟩ ⟨hm, rfl, hc, nofun⟩ ⟨hcnt.trans hlen.symm, hlen ▸ h1⟩

/-! ### The invariant of a step -/

/-- An instruction HOST presents at idle: a primitive leaves the sequencer idle, an acceptance starts an operation. -/
theorem exec_idle_inv {s t : State} {i : Instr} (hi : s.Inv) (ho : s.op = .none) (hm : s.modifying = none)
    (h : exec i s = .next t) : t.Inv := by
  have hp := hi.pc_of_idle ho
  rcases exec_idle_next ho h with ⟨r, rfl⟩ | ⟨r, v, rfl⟩ | ⟨r, m, v, rfl⟩ | ⟨_, _, _, -, rfl⟩ |
    ⟨_, _, _, -, hc, -, h1, hn, hlen, rfl⟩ | ⟨_, _, _, -, hc, -, hlen, rfl⟩
  · exact State.inv_of_idle ho hp
  · exact State.inv_of_idle ho hp
  · exact State.inv_of_idle ho hp
  · simp [State.Inv, hm, hp]
  · exact State.inv_acceptXfer hm hc h1 hn hlen
  · exact State.inv_tableLoop rfl rfl hm rfl hc hlen.symm

theorem step_idle_inv {s t : State} (hi : s.Inv) (ho : s.op = .none) (h : step s = .next t) : t.Inv := by
  have hp := hi.pc_of_idle ho
  rcases step_idle ho with ⟨m, -, hs⟩ | ⟨-, -, hs⟩ | ⟨e, es, hm, -, ⟨-, hs⟩ | ⟨i, -, hs⟩ | ⟨r, hs⟩⟩ <;> rw [hs] at h
  · cases h; exact State.inv_of_idle ho hp
  · cases h; exact hi
  · cases h; exact State.inv_of_idle ho hp
  · exact exec_idle_inv (s := { s with hostIn := es }) (State.inv_of_idle ho hp) ho hm h
  · cases h

/-- A step of an operation in progress: the steps of CFGBUS and of the table loop, then the micro-steps in order. -/
theorem step_busy_inv {s t : State} (hi : s.Inv) (ho : s.op ≠ .none) (h : step s = .next t) : t.Inv := by
  rcases step_busy_cases ho h with ⟨hc, -, rfl⟩ | ⟨hc, -, rfl⟩ | ⟨hc, -, rfl⟩ | ⟨hc, -, rfl⟩ |
    ⟨hr, -, -, e, he, rfl⟩ | ⟨-, hp, -, rfl⟩ | ⟨ht, rfl⟩ | ⟨ht, rfl⟩ | ⟨ht, rfl⟩ | ⟨ht, rfl⟩ | ⟨ht, rfl⟩ | ⟨ht, rfl⟩ |
    ⟨ht, rfl⟩ | ⟨ht, rfl⟩ | ⟨ht, rfl⟩ | ⟨ht, b, hb, rfl⟩ | ⟨ht, rfl⟩ | ⟨ht, rfl⟩ | ⟨ht, rfl⟩
  · exact hi.configWrite hc (by decide)
  · exact hi.configWrite hc (by decide)
  · exact State.inv_configDone (hi.pc_of_config hc)
  · exact State.inv_configDone (hi.pc_of_config hc)
  · exact hi.startEntry hr he
  · exact State.inv_of_idle rfl hp
  · exact hi.microStep ht (by decide) nofun rfl .u1_u2
  · exact hi.poll pollRdone _ ht (by decide) fun hu => hu.microStep ht (by decide) nofun rfl .u2_u3
  · exact hi.microStep ht (by decide) nofun rfl .u3_u4
  · exact hi.microStep ht (by decide) nofun rfl (.u4_u5 ht.2)
  · exact hi.microStep ht (by decide) nofun rfl (.u5_u6 ht.2)
  · exact hi.poll pollBb _ ht (by decide) fun hu => hu.microStep ht (by decide) nofun rfl (.u6_u7 ht.2)
  · exact hi.microStep ht (by decide) nofun rfl (.u7_u8 ht.2)
  · exact hi.microStep ht (by decide) nofun rfl (.u8_u9 ht.2)
  · exact hi.poll pollXrdy _ ht (by decide) fun hu => hu.microStep ht (by decide) nofun rfl (.u9_u10 ht.2)
  · exact hi.microStep ht (by decide) nofun rfl (.u10_u11 ht.2 hb)
  · exact hi.microStep ht (by decide) nofun rfl (.u11_u12 ht.2)
  · exact hi.microStep ht (by decide) (by rw [State.nextByte_pc]; split <;> nofun) rfl (.u12_next ht.2)
  · exact hi.poll pollBf _ ht (by decide) fun hu => hu.transactionDone ht

/-- Settles O40: idle, by what HOST's instructions can do; busy, by the micro-steps one by one. -/
theorem stepKeepsTheInvariant : Obligations.StepKeepsTheInvariant := by
  intro s t hi h
  by_cases ho : s.op = .none
  · exact step_idle_inv hi ho h
  · exact step_busy_inv hi ho h

/-! ### What every step of an operation leaves (R21, R23, R26, R27, R29) -/

/-- The operands that every operation keeps while it runs. -/
def State.operands (s : State) : BitVec 7 × List CommandEntry × Nat × BusConfiguration := (s.sa, s.tbl, s.tlen, s.cfg)

/-- What a transaction sends. -/
def State.payload (s : State) : List Byte × BitVec 16 := (s.pay, s.cnt)

/-- From `s` to `t` the operands stand, and so do the payload and the fault record, but where an entry starts its
transaction and where a timeout is taken. -/
inductive State.BusyFrame (s t : State) : Prop where
  | quiet (operands : t.operands = s.operands) (payload : t.payload = s.payload) (fidx : t.fidx = s.fidx)
  | entry (op : s.op = .runtable) (operands : t.operands = s.operands) (fidx : t.fidx = s.fidx)
  | timeout (kind : TimeoutKind) (op : s.op = .xfer ∨ s.op = .runtable) (operands : t.operands = s.operands)
      (payload : t.payload = s.payload) (res : t.res = .timeout kind)
      (fidx : t.fidx = if s.op = .runtable then s.ci else 0)

theorem State.BusyFrame.operands_eq {s t : State} (h : s.BusyFrame t) : t.operands = s.operands := by
  cases h <;> assumption

theorem State.BusyFrame.payload_eq {s t : State} (h : s.BusyFrame t) (ho : s.op = .xfer) : t.payload = s.payload := by
  cases h with
  | quiet _ hp _ => exact hp
  | entry hr _ _ => rw [ho] at hr; cases hr
  | timeout _ _ _ hp _ _ => exact hp

theorem State.BusyFrame.fidx_cases {s t : State} (h : s.BusyFrame t) :
    t.fidx = s.fidx ∨ (∃ kind, t.res = .timeout kind) ∧
      (s.op = .runtable ∧ t.fidx = s.ci ∨ s.op = .xfer ∧ t.fidx = 0) := by
  cases h with
  | quiet _ _ hf => exact .inl hf
  | entry _ _ hf => exact .inl hf
  | timeout kind ho _ _ hr hf => exact .inr ⟨⟨kind, hr⟩, by rcases ho with ho | ho <;> simp [hf, ho]⟩

@[simp] theorem State.transactionDone_operands (s : State) : s.transactionDone.operands = s.operands := by
  unfold State.transactionDone State.operands
  cases s.op <;> simp

@[simp] theorem State.transactionDone_payload (s : State) : s.transactionDone.payload = s.payload := by
  unfold State.transactionDone State.payload
  cases s.op <;> simp

@[simp] theorem State.transactionDone_fidx (s : State) : s.transactionDone.fidx = s.fidx := by
  unfold State.transactionDone
  cases s.op <;> simp

theorem State.poll_busyFrame {s : State} {pc : MicroPc} (p : PollSpec) {f : State → State} (ht : s.inTransaction pc)
    (hoperands : ∀ u, (f u).operands = u.operands) (hpayload : ∀ u, (f u).payload = u.payload)
    (hfidx : ∀ u, (f u).fidx = u.fidx) : s.BusyFrame (s.poll p f) := by
  rcases s.poll_cases p f with ⟨-, h⟩ | ⟨-, -, h⟩ | ⟨-, -, h⟩ <;> rw [h]
  · exact .quiet (hoperands _) (hpayload _) (hfidx _)
  · exact .quiet rfl rfl rfl
  · exact .timeout p.kind ht.1 rfl rfl rfl rfl

/-- The steps of CFGBUS and of the table loop, then the micro-steps in order. -/
theorem step_busyFrame {s t : State} (ho : s.op ≠ .none) (h : step s = .next t) : s.BusyFrame t := by
  rcases step_busy_cases ho h with ⟨-, -, rfl⟩ | ⟨-, -, rfl⟩ | ⟨-, -, rfl⟩ | ⟨-, -, rfl⟩ |
    ⟨hr, -, -, e, -, rfl⟩ | ⟨-, -, -, rfl⟩ | ⟨-, rfl⟩ | ⟨ht, rfl⟩ | ⟨-, rfl⟩ | ⟨-, rfl⟩ | ⟨-, rfl⟩ | ⟨ht, rfl⟩ |
    ⟨-, rfl⟩ | ⟨-, rfl⟩ | ⟨ht, rfl⟩ | ⟨-, b, -, rfl⟩ | ⟨-, rfl⟩ | ⟨-, rfl⟩ | ⟨ht, rfl⟩
  · exact .quiet rfl rfl rfl
  · exact .quiet rfl rfl rfl
  · exact .quiet rfl rfl rfl
  · exact .quiet rfl rfl rfl
  · exact .entry hr rfl rfl
  · exact .quiet rfl rfl rfl
  · exact .quiet rfl rfl rfl -- u1
  · exact State.poll_busyFrame pollRdone ht (fun _ => rfl) (fun _ => rfl) (fun _ => rfl)
  · exact .quiet rfl rfl rfl
  · exact .quiet rfl rfl rfl
  · exact .quiet rfl rfl rfl
  · exact State.poll_busyFrame pollBb ht (fun _ => rfl) (fun _ => rfl) (fun _ => rfl) -- u6
  · exact .quiet rfl rfl rfl
  · exact .quiet rfl rfl rfl
  · exact State.poll_busyFrame pollXrdy ht (fun _ => rfl) (fun _ => rfl) (fun _ => rfl) -- u9
  · exact .quiet rfl rfl rfl
  · exact .quiet rfl rfl rfl
  · exact .quiet rfl rfl rfl
  · exact State.poll_busyFrame pollBf ht State.transactionDone_operands State.transactionDone_payload
      State.transactionDone_fidx -- u13

/-- The host operations, whose acceptance clears the result (R28). -/
def isHostOperation (i : Instr) : Prop :=
  (∃ a b c, i = .cfgbus a b c) ∨ (∃ a b c, i = .xfer a b c) ∨ (∃ a b c, i = .runtable a b c)

/-- An instruction HOST presents at idle keeps the fault record's index, and the result unless it is accepted as a host
operation. -/
theorem exec_idle_record {s t : State} {i : Instr} (ho : s.op = .none) (h : exec i s = .next t) :
    t.fidx = s.fidx ∧ (t.res = s.res ∨ isHostOperation i) := by
  rcases exec_idle_next ho h with ⟨r, rfl⟩ | ⟨r, v, rfl⟩ | ⟨r, m, v, rfl⟩ | ⟨a, b, c, hi, rfl⟩ |
    ⟨a, b, c, hi, -, -, -, -, -, rfl⟩ | ⟨a, b, c, hi, -, -, -, rfl⟩
  · exact ⟨rfl, .inl rfl⟩
  · exact ⟨rfl, .inl rfl⟩
  · exact ⟨rfl, .inl rfl⟩
  · exact ⟨rfl, .inr (.inl ⟨a, b, c, hi⟩)⟩
  · exact ⟨rfl, .inr (.inr (.inl ⟨a, b, c, hi⟩))⟩
  · exact ⟨State.tableLoop_fidx _, .inr (.inr (.inr ⟨a, b, c, hi⟩))⟩

/-- A step at idle keeps the fault record's index, and the result unless it accepts a host operation HOST presents. -/
theorem step_idle_record {s t : State} (ho : s.op = .none) (h : step s = .next t) :
    t.fidx = s.fidx ∧ (t.res = s.res ∨ ∃ e i, s.hostIn.head? = some e ∧ decode e = .ok i ∧
      exec i s.consume = .next t ∧ isHostOperation i) := by
  rcases step_idle ho with ⟨m, -, hs⟩ | ⟨-, -, hs⟩ | ⟨e, es, -, hh, ⟨-, hs⟩ | ⟨i, hd, hs⟩ | ⟨r, hs⟩⟩ <;> rw [hs] at h
  · cases h; exact ⟨rfl, .inl rfl⟩
  · cases h; exact ⟨rfl, .inl rfl⟩
  · cases h; exact ⟨rfl, .inl rfl⟩
  · have hc : s.consume = { s with hostIn := es } := by rw [State.consume_idle ho, hh]; rfl
    obtain ⟨hf, hr⟩ := exec_idle_record (s := { s with hostIn := es }) ho h
    exact ⟨hf, hr.imp_right fun hi => ⟨e, i, by rw [hh]; rfl, hd, hc ▸ h, hi⟩⟩
  · cases h

/-- Settles O48, by the frame of a busy step. -/
theorem operandsStayDuringAnOperation : Obligations.OperandsStayDuringAnOperation := by
  intro s t h
  have hframe (ho : s.op ≠ .none) : t.sa = s.sa ∧ t.tbl = s.tbl ∧ t.tlen = s.tlen ∧ t.cfg = s.cfg := by
    simpa [State.operands] using (step_busyFrame ho h).operands_eq
  refine ⟨fun ho => ?_, fun ho => ?_, fun ho => ?_⟩
  · obtain ⟨hsa, htbl, htlen, -⟩ := hframe (by simp [ho])
    exact ⟨htbl, htlen, hsa⟩
  · obtain ⟨hsa, -⟩ := hframe (by simp [ho])
    have hpayload := (step_busyFrame (by simp [ho]) h).payload_eq ho
    exact ⟨hsa, by simpa [State.payload] using hpayload⟩
  · obtain ⟨-, -, -, hcfg⟩ := hframe (by simp [ho])
    exact hcfg

/-- Settles O50: at idle by what HOST's instructions record, busy by the frame of a step. -/
theorem faultRecordChangesOnlyAtATimeout : Obligations.FaultRecordChangesOnlyAtATimeout := by
  intro s t h
  refine ⟨fun hne => ?_, fun ho hne => (step_idle_record ho h).2.resolve_left hne⟩
  by_cases ho : s.op = .none
  · exact absurd (step_idle_record ho h).1 hne
  · exact (step_busyFrame ho h).fidx_cases.resolve_left hne

/-! ### The next instruction (R32, R203) -/

/-- Settles O6, by the definition of a step. -/
theorem stepRunsTheDecodedInstruction : Obligations.StepRunsTheDecodedInstruction := by
  intro s e i hf hd
  exact ⟨by simp [step, hf, hd], State.consume_busy, State.consume_idle⟩

/-- While an operation runs, but for u0 of a RUNTABLE, SEQ's request is the next instruction. -/
theorem State.fetch_request {s : State} (ho : s.op ≠ .none) (hu : ¬ (s.op = .runtable ∧ s.pc = .u0)) :
    s.fetch = s.request.map fun r => .rb r.word := by
  unfold State.fetch
  cases hop : s.op with
  | none => exact absurd hop ho
  | cfgbus | xfer => rfl
  | runtable =>
    cases hp : s.pc
    case u0 => exact absurd ⟨hop, hp⟩ hu
    all_goals rfl

theorem State.fetch_entry {s : State} {e : CommandEntry} (ho : s.op = .runtable) (hp : s.pc = .u0)
    (hci : s.ci < s.tlen) (he : s.tbl[s.ci]? = some e) : s.fetch = some (.ce e.word) := by
  simp [State.fetch, State.currentEntry?, ho, hp, hci, he]

/-- Settles O7, position by position. -/
theorem fetchFollowsTheControlPosition : Obligations.FetchFollowsTheControlPosition := by
  intro s
  refine ⟨fun ho hm => ?_, fun ho hm => ?_, fun ho hp e hci he => State.fetch_entry ho hp hci he, State.fetch_request⟩
  · simp [State.fetch, ho, hm]
  · simp [State.fetch, ho, hm]

/-- Settles O32: the three primitives look their register up first. -/
theorem unmappedOffsetRefused : Obligations.UnmappedOffsetRefused := by
  intro s off v mask value h
  exact ⟨State.atOffset_unmapped _ h, State.atOffset_unmapped _ h, State.atOffset_unmapped _ h⟩

/-! ### Reset (R59) -/

theorem step_reset : step State.reset = .next State.reset := rfl

theorem runFor_reset (k : Nat) : runFor k State.reset = .next State.reset := by
  induction k with
  | zero => rfl
  | succ k ih => rw [runFor_step k step_reset, ih]

/-- Settles O37: the reset values, and the step of the idle machine that stays. -/
theorem resetIsIdle : Obligations.ResetIsIdle :=
  ⟨rfl, rfl, rfl, rfl, rfl, rfl, rfl, rfl, rfl, runFor_reset⟩

/-- Settles O39: reset is idle at u0, which is all the invariant asks of an idle machine. -/
theorem resetMeetsTheInvariant : Obligations.ResetMeetsTheInvariant :=
  State.inv_of_idle rfl rfl

/-! ### Machines that stand alike act alike (R32, R34, R168) -/

/-- The machine with other controller contents, another record and another result. -/
def State.recording (c : Controller) (tr : List Event) (fr : List BusFrame) (r : OpResult) (x : Nat) (s : State) : State :=
  { s with ctrl := c, trace := tr, frames := fr, res := r, fidx := x }

theorem State.SameControl.recording {s u : State} (h : s.SameControl u) :
    u = s.recording u.ctrl u.trace u.frames u.res u.fidx := h

/-- `s` goes to `t` and `u` goes to `w` with the same new events, and `t` and `w` stand alike. -/
structure State.StepsAlike (s u t w : State) : Prop where
  control : t.SameControl w
  events : ∃ es, t.trace = s.trace ++ es ∧ w.trace = u.trace ++ es

theorem State.StepsAlike.quiet {s u t w : State} (h : t.SameControl w) (ht : t.trace = s.trace)
    (hw : w.trace = u.trace) : s.StepsAlike u t w :=
  ⟨h, [], by simp [ht], by simp [hw]⟩

/-- From machines that stand alike, `f` appends the same events and leaves them alike. -/
def ActsAlike (f : State → State) : Prop := ∀ s u : State, s.SameControl u → s.StepsAlike u (f s) (f u)

/-- `f` appends the events `es`, which do not depend on what is recorded, nor does the control it leaves. -/
theorem ActsAlike.of_events {f : State → State} (es : State → List Event) (htrace : ∀ s, (f s).trace = s.trace ++ es s)
    (hes : ∀ c tr fr r x s, es (State.recording c tr fr r x s) = es s)
    (hf : ∀ c tr fr r x s, (f s).SameControl (f (State.recording c tr fr r x s))) : ActsAlike f := by
  intro s u h
  rw [h.recording]
  exact ⟨hf _ _ _ _ _ s, es s, htrace s, (htrace _).trans (by rw [hes])⟩

theorem ActsAlike.of_quiet {f : State → State} (htrace : ∀ s, (f s).trace = s.trace)
    (hf : ∀ c tr fr r x s, (f s).SameControl (f (State.recording c tr fr r x s))) : ActsAlike f :=
  .of_events (fun _ => []) (fun s => by simp [htrace]) (fun _ _ _ _ _ _ => rfl) hf

theorem ActsAlike.comp {f g : State → State} (hf : ActsAlike f) (hg : ActsAlike g) : ActsAlike fun s => f (g s) := by
  intro s u h
  obtain ⟨hsame, es, hs, hu⟩ := hg s u h
  obtain ⟨hsame', es', hs', hu'⟩ := hf _ _ hsame
  exact ⟨hsame', es ++ es', by simp [hs', hs], by simp [hu', hu]⟩

/-- A choice that does not look at what is recorded. -/
theorem ActsAlike.ite {f g : State → State} {c : State → Prop} [DecidablePred c]
    (hc : ∀ s u : State, s.SameControl u → (c s ↔ c u)) (hf : ActsAlike f) (hg : ActsAlike g) :
    ActsAlike fun s => if c s then f s else g s := by
  intro s u h
  by_cases hs : c s
  · simpa only [if_pos hs, if_pos ((hc s u h).1 hs)] using hf s u h
  · simpa only [if_neg hs, if_neg (mt (hc s u h).2 hs)] using hg s u h

section
variable {s u : State} (h : s.SameControl u)
include h

theorem State.SameControl.op : u.op = s.op := by rw [h.recording]; rfl
theorem State.SameControl.pc : u.pc = s.pc := by rw [h.recording]; rfl
theorem State.SameControl.cs : u.cs = s.cs := by rw [h.recording]; rfl
theorem State.SameControl.ci : u.ci = s.ci := by rw [h.recording]; rfl
theorem State.SameControl.tlen : u.tlen = s.tlen := by rw [h.recording]; rfl
theorem State.SameControl.cfgd : u.cfgd = s.cfgd := by rw [h.recording]; rfl
theorem State.SameControl.modifying : u.modifying = s.modifying := by rw [h.recording]; rfl
theorem State.SameControl.answer : u.answer = s.answer := by rw [h.recording]; rfl
theorem State.SameControl.request : u.request = s.request := by rw [h.recording]; rfl
theorem State.SameControl.fetch : u.fetch = s.fetch := by rw [h.recording]; rfl

end

theorem actsAlike_regRead (r : CtrlReg) : ActsAlike (State.regRead r) :=
  .of_events (fun s => [.read r.offset s.answer]) (fun _ => rfl) (fun _ _ _ _ _ _ => rfl) (fun _ _ _ _ _ _ => rfl)

theorem actsAlike_regWrite (r : CtrlReg) (v : Word) : ActsAlike (State.regWrite r v) :=
  .of_events (fun _ => [.write r.offset v]) (fun _ => rfl) (fun _ _ _ _ _ _ => rfl) (fun _ _ _ _ _ _ => rfl)

theorem actsAlike_startModify (r : CtrlReg) (mask value : Word) : ActsAlike (State.startModify r mask value) :=
  .of_events (fun s => [.read r.offset s.answer]) (fun _ => rfl) (fun _ _ _ _ _ _ => rfl) (fun _ _ _ _ _ _ => rfl)

theorem actsAlike_finishModify (m : ModifyWrite) : ActsAlike (State.finishModify m) :=
  .of_events (fun _ => [.write m.reg.offset m.value]) (fun _ => rfl) (fun _ _ _ _ _ _ => rfl)
    (fun _ _ _ _ _ _ => rfl)

theorem actsAlike_settleAfterArm : ActsAlike State.settleAfterArm :=
  .of_events (fun _ => [.settle]) (fun _ => rfl) (fun _ _ _ _ _ _ => rfl) (fun _ _ _ _ _ _ => rfl)

theorem actsAlike_settleAfterData : ActsAlike State.settleAfterData :=
  .of_events (fun _ => [.settle]) (fun _ => rfl) (fun _ _ _ _ _ _ => rfl) (fun _ _ _ _ _ _ => rfl)

theorem actsAlike_configDone : ActsAlike State.configDone :=
  .of_quiet (fun _ => rfl) (fun _ _ _ _ _ _ => rfl)

theorem actsAlike_raiseTimeout (kind : TimeoutKind) : ActsAlike (State.raiseTimeout kind) :=
  .of_quiet (fun _ => rfl) (fun _ _ _ _ _ _ => rfl)

theorem actsAlike_pollFailed (kind : TimeoutKind) : ActsAlike (State.pollFailed kind) := by
  have hcount : ActsAlike fun s => { s with pk := s.pk + 1 } := .of_quiet (fun _ => rfl) (fun _ _ _ _ _ _ => rfl)
  refine .ite (fun s u h => ?_) ((actsAlike_raiseTimeout kind).comp hcount) hcount
  rw [h.recording]; rfl

theorem actsAlike_poll (p : PollSpec) {f : State → State} (hf : ActsAlike f) : ActsAlike (State.poll p f) := by
  refine .ite (fun s u h => ?_) (hf.comp (actsAlike_regRead p.reg))
    ((actsAlike_pollFailed p.kind).comp (actsAlike_regRead p.reg))
  rw [h.answer]

theorem actsAlike_tableLoop : ActsAlike State.tableLoop := by
  refine .ite (fun s u h => ?_) (.of_quiet (fun _ => rfl) (fun _ _ _ _ _ _ => rfl))
    (.of_quiet (fun _ => rfl) (fun _ _ _ _ _ _ => rfl))
  rw [h.recording]; rfl

/-- Completion returns to where the transaction was started, which machines that stand alike share. -/
theorem actsAlike_transactionDone : ActsAlike State.transactionDone := by
  refine .of_quiet State.transactionDone_trace fun c tr fr r x s => ?_
  have hrec : (State.recording c tr fr r x s).op = s.op := rfl
  cases hop : s.op with
  | none | cfgbus =>
    simp only [State.transactionDone, hrec, hop]
    exact rfl
  | xfer =>
    rw [State.transactionDone_xfer hop, State.transactionDone_xfer (hrec.trans hop)]
    exact rfl
  | runtable =>
    by_cases hm : s.ci + 1 < s.tlen
    · rw [State.transactionDone_more hop hm, State.transactionDone_more (hrec.trans hop) hm]
      exact rfl
    · rw [State.transactionDone_last hop hm, State.transactionDone_last (hrec.trans hop) hm]
      exact rfl

theorem actsAlike_pollIrq : ActsAlike State.pollIrq := by
  intro s u h
  unfold State.pollIrq
  rw [h.pc]
  cases s.pc
  case u6 => refine actsAlike_poll pollBb (.of_quiet ?_ ?_) s u h <;> intros <;> exact rfl
  case u9 => refine actsAlike_poll pollXrdy (.of_quiet ?_ ?_) s u h <;> intros <;> exact rfl
  case u13 => exact actsAlike_poll pollBf actsAlike_transactionDone s u h
  all_goals exact actsAlike_regRead .irqStatusRaw s u h

/-- The delays of u8 and u11, and nothing elsewhere (R160, R189). -/
theorem State.SameControl.delayStep {s u : State} (h : s.SameControl u) :
    (s.delayStep = none ∧ u.delayStep = none) ∨
      ∃ f, ActsAlike f ∧ s.delayStep = some (f s) ∧ u.delayStep = some (f u) := by
  unfold State.delayStep
  rw [h.pc]
  cases s.pc
  case u8 => exact .inr ⟨_, actsAlike_settleAfterArm, rfl, rfl⟩
  case u11 => exact .inr ⟨_, actsAlike_settleAfterData, rfl, rfl⟩
  all_goals exact .inl ⟨rfl, rfl⟩

/-- When no instruction is due, machines that stand alike take the same internal step, or none. -/
theorem State.SameControl.internalStep {s u : State} (h : s.SameControl u) :
    (s.internalStep = none ∧ u.internalStep = none) ∨
      ∃ f, ActsAlike f ∧ s.internalStep = some (f s) ∧ u.internalStep = some (f u) := by
  unfold State.internalStep
  rw [h.op]
  cases s.op with
  | none =>
    rw [h.modifying]
    cases s.modifying with
    | some m => exact .inr ⟨_, actsAlike_finishModify m, rfl, rfl⟩
    | none => exact .inr ⟨id, .of_quiet (fun _ => rfl) fun _ _ _ _ _ _ => rfl, rfl, rfl⟩
  | cfgbus =>
    rw [h.cs]
    by_cases hc : s.cs = 3
    · exact .inr ⟨_, actsAlike_configDone, if_pos hc, if_pos hc⟩
    · exact .inl ⟨if_neg hc, if_neg hc⟩
  | xfer => exact h.delayStep
  | runtable =>
    rw [h.pc, h.ci, h.tlen]
    by_cases hc : s.pc = .u0 ∧ ¬ s.ci < s.tlen
    · exact .inr ⟨_, actsAlike_tableLoop, if_pos hc, if_pos hc⟩
    · simpa only [if_neg hc] using h.delayStep

/-- Two outcomes from `s` and from `u` are alike: the same stop, or next states reached alike. -/
inductive OutcomesAlike (s u : State) : Host.Outcome State Fault Refusal → Host.Outcome State Fault Refusal → Prop
  | next {t w : State} (h : s.StepsAlike u t w) : OutcomesAlike s u (.next t) (.next w)
  | fault (f : Fault) : OutcomesAlike s u (.fault f) (.fault f)
  | refused (r : Refusal) : OutcomesAlike s u (.refused r) (.refused r)

theorem OutcomesAlike.ite {s u : State} {p q : Prop} [Decidable p] [Decidable q]
    {a b a' b' : Host.Outcome State Fault Refusal} (hpq : p ↔ q) (ha : OutcomesAlike s u a a')
    (hb : OutcomesAlike s u b b') : OutcomesAlike s u (if p then a else b) (if q then a' else b') := by
  by_cases hp : p
  · rwa [if_pos hp, if_pos (hpq.1 hp)]
  · rwa [if_neg hp, if_neg (mt hpq.2 hp)]

/-- Events are counted from the traces alone. -/
theorem OutcomesAlike.of_trace {s u s' u' : State} {a b : Host.Outcome State Fault Refusal}
    (h : OutcomesAlike s u a b) (hs : s.trace = s'.trace) (hu : u.trace = u'.trace) : OutcomesAlike s' u' a b := by
  cases h with
  | next h => exact .next ⟨h.control, by rw [← hs, ← hu]; exact h.events⟩
  | fault f => exact .fault f
  | refused r => exact .refused r

theorem OutcomesAlike.next_left {s u t : State} {b : Host.Outcome State Fault Refusal}
    (h : OutcomesAlike s u (.next t) b) : ∃ w, s.StepsAlike u t w ∧ b = .next w := by
  cases h with
  | next h => exact ⟨_, h, rfl⟩

theorem OutcomesAlike.fault_left {s u : State} {f : Fault} {b : Host.Outcome State Fault Refusal}
    (h : OutcomesAlike s u (.fault f) b) : b = .fault f := by
  cases h; rfl

theorem OutcomesAlike.refused_left {s u : State} {r : Refusal} {b : Host.Outcome State Fault Refusal}
    (h : OutcomesAlike s u (.refused r) b) : b = .refused r := by
  cases h; rfl

section
variable {s u : State} (h : s.SameControl u)
include h

theorem State.SameControl.primitive {f : State → State} (hf : ActsAlike f) :
    OutcomesAlike s u (s.primitive f) (u.primitive f) :=
  .ite (by rw [h.recording]; rfl) (.next (hf s u h)) (.refused _)

theorem State.SameControl.issueWrite (r : CtrlReg) (v : Word) {f : State → State} (hf : ActsAlike f) :
    OutcomesAlike s u (s.issueWrite r v f) (u.issueWrite r v f) :=
  .ite (by rw [h.request]) (.next (hf.comp (actsAlike_regWrite r v) s u h)) (h.primitive (actsAlike_regWrite r v))

theorem State.SameControl.issueRead (r : CtrlReg) {f : State → State} (hf : ActsAlike f) :
    OutcomesAlike s u (s.issueRead r f) (u.issueRead r f) :=
  .ite (by rw [h.request]) (.next (hf s u h)) (h.primitive (actsAlike_regRead r))

theorem State.SameControl.atOffset (off : Byte) {f : CtrlReg → State → State} (hf : ∀ r, ActsAlike (f r)) :
    OutcomesAlike s u (s.atOffset off f) (u.atOffset off f) := by
  unfold State.atOffset
  cases CtrlReg.ofOffset? off with
  | some r => exact h.primitive (hf r)
  | none => exact .refused _

theorem State.SameControl.execCfgbus (psc scll sclh : Word) :
    OutcomesAlike s u (execCfgbus psc scll sclh s) (execCfgbus psc scll sclh u) := by
  refine .ite (by rw [h.op]) (.refused _) (.next ?_)
  exact .quiet (by rw [h.recording]; rfl) rfl rfl

theorem State.SameControl.execXfer (sa n : Nat) (payload : List Byte) :
    OutcomesAlike s u (execXfer sa n payload s) (execXfer sa n payload u) := by
  refine .ite (by rw [h.op]) (.refused _) (.ite (by rw [h.cfgd]) (.refused _)
    (.ite .rfl (.refused _) (.ite .rfl (.refused _) (.next ?_))))
  exact .quiet (by rw [h.recording]; rfl) rfl rfl

theorem State.SameControl.execRuntable (sa tlen : Nat) (table : List CommandEntry) :
    OutcomesAlike s u (execRuntable sa tlen table s) (execRuntable sa tlen table u) := by
  refine .ite (by rw [h.op]) (.refused _) (.ite (by rw [h.cfgd]) (.refused _)
    (.ite .rfl (.refused _) (.ite .rfl (.refused _) (.next ?_))))
  refine .quiet (actsAlike_tableLoop _ _ ?_).control (State.tableLoop_trace _) (State.tableLoop_trace _)
  rw [h.recording]; rfl

theorem State.SameControl.execRegwr (reg val : Byte) :
    OutcomesAlike s u (execRegwr reg val s) (execRegwr reg val u) := by
  refine .ite (by rw [h.op, h.pc, h.ci, h.tlen]) (.next ?_) (.refused _)
  exact .quiet (by rw [h.recording]; rfl) rfl rfl

/-- Every instruction: what follows its request looks at nothing that is recorded. -/
theorem State.SameControl.exec (i : Instr) : OutcomesAlike s u (exec i s) (exec i u) := by
  cases i with
  | srst | clrXrdy | wrBuf | wrCnt | wrData | wrCon | wrSa | wrPsc | wrScll | wrSclh =>
    simp only [Machine.exec, execSrst, execClrXrdy, execWrBuf, execWrCnt, execWrData, execWrCon, execWrSa, execWrPsc,
      execWrScll, execWrSclh]
    refine h.issueWrite _ _ (.of_quiet ?_ ?_) <;> intros <;> exact rfl
  | rdIrqraw => exact h.issueRead _ actsAlike_pollIrq
  | rdSyss => refine h.issueRead _ (actsAlike_poll _ (.of_quiet ?_ ?_)) <;> intros <;> exact rfl
  | regwr reg val => exact h.execRegwr reg val
  | cfgbus psc scll sclh => exact h.execCfgbus psc scll sclh
  | xfer sa n payload => exact h.execXfer sa n payload
  | runtable sa tlen table => exact h.execRuntable sa tlen table
  | read off => exact h.atOffset off actsAlike_regRead
  | write off v => exact h.atOffset off fun r => actsAlike_regWrite r v
  | modify off mask value => exact h.atOffset off fun r => actsAlike_startModify r mask value

theorem State.SameControl.consume : s.consume.SameControl u.consume := by
  unfold State.consume
  rw [h.op]
  cases s.op with
  | none => rw [h.recording]; exact rfl
  | cfgbus | xfer | runtable => exact h

/-- A step: what is fetched, and what runs, is the same. -/
theorem State.SameControl.step : OutcomesAlike s u (step s) (step u) := by
  unfold Machine.step
  rw [h.fetch]
  cases s.fetch with
  | some e =>
    simp only
    cases decode e with
    | ok i => exact (h.consume.exec i).of_trace (State.consume_trace s) (State.consume_trace u)
    | error err =>
      cases err with
      | noOperation => exact .next (.quiet h.consume (State.consume_trace s) (State.consume_trace u))
      | readWithData | notAModifyPair => exact .refused _
  | none =>
    rcases h.internalStep with ⟨hs, hu⟩ | ⟨f, hf, hs, hu⟩
    · simp only [hs, hu]; exact .fault _
    · simp only [hs, hu]; exact .next (hf s u h)

end

/-- Settles O52: machines that stand alike step alike, so each outcome of one is the other's. -/
theorem controllerContentsNeverDecide : Obligations.ControllerContentsNeverDecide := by
  intro s u h
  have halike := h.step
  refine ⟨fun t ht => ?_, fun f hf => ?_, fun r hr => ?_⟩
  · rw [ht] at halike
    obtain ⟨w, ⟨hsame, es, hs, hu⟩, hw⟩ := halike.next_left
    exact ⟨w, es, hw, hsame, hs, hu⟩
  · rw [hf] at halike
    exact halike.fault_left
  · rw [hr] at halike
    exact halike.refused_left

end Sys2Proof.Machine

/-! ## Family 20_memory: the frame list, a write to the status register, and the addresses (R75, R79, R82, R169) -/

namespace Sys2Proof.Machine

/-! ### The frame list (R75, R161, R169, R236) -/

/-- What the frame list of `t` may be one step after `s`: the same, or longer by what its transaction sent. -/
inductive State.FramesGrow (s t : State) : Prop where
  | quiet (frames : t.frames = s.frames)
  | frame (pc : s.pc = .u13) (frames : t.frames = s.frames ++ [.frame s.sa s.pay])
  | unknown (pc : s.pc = .u9 ∨ s.pc = .u13) (frames : t.frames = s.frames ++ [.unknown s.sa])

theorem State.FramesGrow.frames_cases {s t : State} (h : s.FramesGrow t) :
    t.frames = s.frames ∨
    (s.pc = .u13 ∧ t.frames = s.frames ++ [.frame s.sa s.pay]) ∨
    ((s.pc = .u9 ∨ s.pc = .u13) ∧ t.frames = s.frames ++ [.unknown s.sa]) := by
  cases h with
  | quiet hf => exact .inl hf
  | frame hp hf => exact .inr (.inl ⟨hp, hf⟩)
  | unknown hp hf => exact .inr (.inr ⟨hp, hf⟩)

@[simp] theorem State.transactionDone_frames (s : State) :
    s.transactionDone.frames = s.frames ++ [.frame s.sa s.pay] := by
  unfold State.transactionDone
  cases s.op <;> simp

/-- One step of a poll: a failed read changes no frame, so only what a pass does and the timeout matter. -/
theorem State.poll_framesGrow {p : PollSpec} {f : State → State} {s : State}
    (hpass : s.FramesGrow (f (s.regRead p.reg))) : s.FramesGrow (s.poll p f) := by
  rcases s.poll_cases p f with ⟨-, h⟩ | ⟨-, -, h⟩ | ⟨-, -, h⟩ <;> rw [h]
  · exact hpass
  · exact .quiet rfl
  · -- the timeout adds the marker at u9 and u13, after the arm write (R169), and nothing before
    by_cases hp : s.pc = .u9 ∨ s.pc = .u13
    · exact .unknown hp (if_pos hp)
    · exact .quiet (if_neg hp)

theorem exec_idle_frames {s t : State} {i : Instr} (ho : s.op = .none) (h : exec i s = .next t) :
    t.frames = s.frames := by
  rcases exec_idle_next ho h with ⟨r, rfl⟩ | ⟨r, v, rfl⟩ | ⟨r, m, v, rfl⟩ | ⟨_, _, _, -, rfl⟩ |
    ⟨_, _, _, -, -, -, -, -, -, rfl⟩ | ⟨_, _, _, -, -, -, -, rfl⟩
  · rfl
  · rfl
  · rfl
  · rfl
  · rfl
  · exact State.tableLoop_frames _

theorem step_idle_frames {s t : State} (ho : s.op = .none) (h : step s = .next t) : t.frames = s.frames := by
  rcases step_idle ho with ⟨m, -, hs⟩ | ⟨-, -, hs⟩ | ⟨e, es, -, -, ⟨-, hs⟩ | ⟨i, -, hs⟩ | ⟨r, hs⟩⟩ <;> rw [hs] at h
  · cases h; rfl
  · cases h; rfl
  · cases h; rfl
  · exact exec_idle_frames (s := { s with hostIn := es }) ho h
  · cases h

/-- While an operation runs only the four polls can change the frame list: all of them by the timeout, the last also by
its pass. -/
theorem step_busy_framesGrow {s t : State} (ho : s.op ≠ .none) (h : step s = .next t) : s.FramesGrow t := by
  rcases step_busy_cases ho h with ⟨-, -, rfl⟩ | ⟨-, -, rfl⟩ | ⟨-, -, rfl⟩ | ⟨-, -, rfl⟩ |
    ⟨-, -, -, e, -, rfl⟩ | ⟨-, -, -, rfl⟩ | ⟨-, rfl⟩ | ⟨-, rfl⟩ | ⟨-, rfl⟩ | ⟨-, rfl⟩ | ⟨-, rfl⟩ | ⟨-, rfl⟩ |
    ⟨-, rfl⟩ | ⟨-, rfl⟩ | ⟨-, rfl⟩ | ⟨-, b, -, rfl⟩ | ⟨-, rfl⟩ | ⟨-, rfl⟩ | ⟨ht, rfl⟩
  · exact .quiet rfl -- CFGBUS
  · exact .quiet rfl
  · exact .quiet rfl
  · exact .quiet rfl
  · exact .quiet rfl -- RUNTABLE at u0
  · exact .quiet rfl
  · exact .quiet rfl -- u1
  · exact State.poll_framesGrow (.quiet rfl)
  · exact .quiet rfl
  · exact .quiet rfl
  · exact .quiet rfl
  · exact State.poll_framesGrow (.quiet rfl) -- u6
  · exact .quiet rfl
  · exact .quiet rfl
  · exact State.poll_framesGrow (.quiet rfl) -- u9
  · exact .quiet rfl
  · exact .quiet rfl
  · exact .quiet rfl
  · exact State.poll_framesGrow (.frame ht.2 (State.transactionDone_frames _)) -- u13

/-- Settles O46: an idle step keeps the frame list, a busy one adds what its poll says. -/
theorem frameListGrowsOnlyAtTheEnd : Obligations.FrameListGrowsOnlyAtTheEnd := by
  intro s t h
  by_cases ho : s.op = .none
  · exact .inl (step_idle_frames ho h)
  · exact (step_busy_framesGrow ho h).frames_cases

/-! ### A write to the status register (R82, R111, R278) -/

theorem exec_write_idle {s : State} (r : CtrlReg) (v : Word) (ho : s.op = .none) :
    exec (.write r.offset v) s = .next (s.regWrite r v) :=
  (State.atOffset_mapped _).trans (State.primitive_idle _ ho)

/-- A bit written 0 stays, whatever the register holds (R82). -/
theorem Controller.write_irqStatusRaw_zero {n : Nat} {c : Controller} {v : Word} {k : Nat} (h : v.getLsbD k = false) :
    (c.write n .irqStatusRaw v).irqStatusRaw.getLsbD k = c.irqStatusRaw.getLsbD k :=
  clearByWrite_zero h

/-- A flag written 1 is cleared: XRDY by R82, BB and BF by log 9. -/
theorem Controller.write_irqStatusRaw_flag {n : Nat} {c : Controller} {v : Word} {k : Nat}
    (hf : irqFlags.getLsbD k = true) (h : v.getLsbD k = true) :
    (c.write n .irqStatusRaw v).irqStatusRaw.getLsbD k = false :=
  clearByWrite_flag hf h

/-- Settles O30: the WRITE is one write request, and bits 4, 8 and 12 are the flags. -/
theorem writeOneToClearXrdy : Obligations.WriteOneToClearXrdy := by
  intro s v ho
  exact ⟨s.regWrite .irqStatusRaw v, exec_write_idle .irqStatusRaw v ho,
    Controller.write_irqStatusRaw_flag (by decide), -- XRDY written 1
    Controller.write_irqStatusRaw_zero, -- XRDY written 0
    fun _ => Controller.write_irqStatusRaw_zero,
    Controller.write_irqStatusRaw_flag (by decide), -- BF
    Controller.write_irqStatusRaw_flag (by decide)⟩ -- BB

/-! ### Addresses (R15, R79) -/

theorem CtrlReg.four_dvd_offset (r : CtrlReg) : 4 ∣ r.offset.toNat := by
  cases r <;> decide

theorem Params.four_dvd_i2cBase (p : Params) : 4 ∣ p.i2cBase := Nat.dvd_mul_right 4 p.baseWord

/-- Settles O38: the base and each of the eleven offsets are multiples of 4. -/
theorem everyAccessIsAligned : Obligations.EveryAccessIsAligned := by
  intro p r
  exact ⟨Nat.mod_eq_zero_of_dvd (Nat.dvd_add (Params.four_dvd_i2cBase p) (CtrlReg.four_dvd_offset r)), rfl⟩

end Sys2Proof.Machine

/-! ## Family 30_encoding: decoding, encoding, the twelve requests, the writes of CFGBUS (R100 to R117, R142 to R145) -/

namespace Sys2Proof

open Machine (isSequencerRequest)

/-! ### The fields of a request (R101) -/

theorem RbWord.eq_rbPack_iff {w : RbWord} {b : Bool} {off : Byte} {data : Word} :
    w = rbPack b off data ↔ w.isWrite = b ∧ w.off = off ∧ w.dataField = data := by
  constructor
  · rintro rfl
    simp
  · rintro ⟨rfl, rfl, rfl⟩
    exact (rbPack_fields w).symm

theorem rbPack_inj {w w' : Bool} {off off' : Byte} {data data' : Word} :
    rbPack w off data = rbPack w' off' data' ↔ w = w' ∧ off = off' ∧ data = data' := by
  simp [RbWord.eq_rbPack_iff]

theorem RbWord.isWrite_and (v w : RbWord) : RbWord.isWrite (v &&& w) = (v.isWrite && w.isWrite) := by
  simp only [RbWord.isWrite, BitVec.getLsbD_and]

theorem RbWord.off_and (v w : RbWord) : RbWord.off (v &&& w) = v.off &&& w.off := BitVec.extractLsb'_and

theorem RbWord.dataField_and (v w : RbWord) : RbWord.dataField (v &&& w) = v.dataField &&& w.dataField :=
  BitVec.extractLsb'_and

/-! ### The twelve requests are the ones with a row of their own (R104, R106) -/

/-- START and STOP are bits 1:0 of a CONTROL word (R47, R110). -/
theorem extract_low_two_eq_three_iff (x : Word) : BitVec.extractLsb' 0 2 x = 3 ↔ x.toNat % 4 = 3 := by
  rw [← BitVec.toNat_inj, BitVec.extractLsb'_toNat, Nat.shiftRight_zero]
  rfl

/-- The same, under the mask of WR.CON's row (R104). -/
theorem and_three_eq_three_iff_mod (x : Word) : x &&& 3#32 = 3#32 ↔ x.toNat % 4 = 3 := by
  rw [← BitVec.toNat_inj, BitVec.toNat_and]
  exact iff_of_eq (congrArg (· = 3) (Nat.and_two_pow_sub_one_eq_mod x.toNat 2))

/-- An instruction with a request's words is one of the twelve, or it is the primitive READ or WRITE (R106). -/
theorem eq_primitive_of_encode {i : Instr} {w : Bool} {off : Byte} {data : Word}
    (h : encode i = .rb (rbPack w off data)) (hi : isSequencerRequest i = false) :
    i = bif w then .write off data else .read off := by
  cases i with
  | write off' data' | read off' =>
    obtain ⟨rfl, rfl, rfl⟩ := rbPack_inj.1 (Encoded.rb.inj h)
    rfl
  | regwr | cfgbus | xfer | runtable | modify => cases h
  | _ => cases hi

theorem isSequencerRequest_decodeRead (off : Byte) :
    isSequencerRequest (decodeRead off) = (off == 0x24 || off == 0x90) := by
  simp only [decodeRead, apply_ite isSequencerRequest]
  rw [Bool.eq_iff_iff]
  simp [isSequencerRequest]

theorem isSequencerRequest_decodeWrite (off : Byte) (data : Word) :
    isSequencerRequest (decodeWrite off data) = hasWriteRow off data := by
  simp only [decodeWrite, apply_ite isSequencerRequest,
    extract_high_eq_zero_iff (n := 16) (m := 16) data rfl, extract_high_eq_zero_iff (n := 8) (m := 24) data rfl,
    extract_high_eq_zero_iff (n := 7) (m := 25) data rfl, extract_low_two_eq_three_iff]
  rw [Bool.eq_iff_iff]
  simp [hasWriteRow, isSequencerRequest, or_assoc]

/-! ### Decoding the words of an instruction (R100 to R106) -/

theorem decodeRead_of_no_row {off : Byte} (h : isSequencerRequest (decodeRead off) = false) :
    decodeRead off = .read off :=
  eq_primitive_of_encode (encode_decodeRead off) h

theorem decodeWrite_of_no_row {off : Byte} {data : Word} (h : hasWriteRow off data = false) :
    decodeWrite off data = .write off data :=
  eq_primitive_of_encode (encode_decodeWrite off data) (by rw [isSequencerRequest_decodeWrite, h])

theorem decode_pair (off : Byte) (mask value : Word) :
    decode (.pair (rbPack false off 0) (rbPack true off value) mask) = .ok (.modify off mask value) := by
  simp [decode, decodePair]

/-- Settles O1, instruction by instruction: each of the twelve requests has a row of its own, a well-formed READ or WRITE
has none, and the other spaces hold their operands as they are. -/
theorem decodeOfEncodeIsTheInstruction : Obligations.DecodeOfEncodeIsTheInstruction := by
  intro i hi
  have hread {off : Byte} {j : Instr} (h : decodeRead off = j) : decode (.rb (rbPack false off 0)) = .ok j := by
    rw [decode_rbPack_read, h]
  have hwrite {off : Byte} {data : Word} {j : Instr} (h : decodeWrite off data = j) :
      decode (.rb (rbPack true off data)) = .ok j := by
    rw [decode_rbPack_write, h]
  cases i with
  | srst => exact hwrite decodeWrite_srst
  | rdIrqraw => exact hread decodeRead_irq
  | clrXrdy => exact hwrite decodeWrite_clrXrdy
  | rdSyss => exact hread decodeRead_syss
  | wrBuf => exact hwrite decodeWrite_wrBuf
  | wrCnt n => exact hwrite (decodeWrite_wrCnt n)
  | wrData b => exact hwrite (decodeWrite_wrData b)
  | wrCon en => exact hwrite (decodeWrite_wrCon en)
  | wrSa a => exact hwrite (decodeWrite_wrSa a)
  | wrPsc v => exact hwrite (decodeWrite_wrPsc v)
  | wrScll v => exact hwrite (decodeWrite_wrScll v)
  | wrSclh v => exact hwrite (decodeWrite_wrSclh v)
  | regwr reg val => simp [encode, decode]
  | cfgbus psc scll sclh => rfl
  | xfer sa n payload => rfl
  | runtable sa tlen table => simp [encode, decode, decodeHc, Function.comp_def]
  | read off =>
    have hrow : (off == 0x24 || off == 0x90) = false := by simp_all [WellFormed]
    exact hread (decodeRead_of_no_row ((isSequencerRequest_decodeRead off).trans hrow))
  | write off v =>
    have hrow : hasWriteRow off v = false := by simp_all [WellFormed]
    exact hwrite (decodeWrite_of_no_row hrow)
  | modify off mask value => exact decode_pair off mask value

/-- Settles O2: a request is the packing of the fields it is decoded from, and encoding packs the same fields. -/
theorem encodeOfDecodedRequestIsTheRequest : Obligations.EncodeOfDecodedRequestIsTheRequest := by
  intro w i hd
  simp only [decode, decodeRb] at hd
  split at hd
  next hw =>
    cases hd
    rw [encode_decodeWrite, ← hw, rbPack_fields]
  next hw =>
    split at hd
    next hdata =>
      cases hd
      rw [encode_decodeRead, ← hdata, ← Bool.eq_false_of_not_eq_true hw, rbPack_fields]
    next => cases hd

/-- A well-formed instruction is decoded from its own words and from no other request. -/
theorem decode_rb_eq_ok_iff {w : RbWord} {i : Instr} (hi : WellFormed i = true) :
    decode (.rb w) = .ok i ↔ encode i = .rb w :=
  ⟨encodeOfDecodedRequestIsTheRequest w i, fun h => h ▸ decodeOfEncodeIsTheInstruction i hi⟩

/-! ### The rows' match and mask (R104) -/

/-- A request meets a row that fixes W and OFF when it has that W and that OFF and its DATA meets the rest of the row. -/
theorem meets_row_iff (w : RbWord) (b : Bool) (off : Byte) (mask pattern : Word) :
    w &&& rbPack true 0xFF mask = rbPack b off pattern ↔
      w.isWrite = b ∧ w.off = off ∧ w.dataField &&& mask = pattern := by
  have hff : w.off &&& 0xFF = w.off := BitVec.and_allOnes
  rw [RbWord.eq_rbPack_iff, RbWord.isWrite_and, RbWord.off_and, RbWord.dataField_and, rbPack_isWrite, rbPack_off,
    rbPack_dataField, hff, Bool.and_true]

/-- A row whose mask is every bit matches its pattern alone. -/
theorem decode_iff_of_full_mask {i : Instr} {p : RbWord} (w : RbWord) (hi : WellFormed i = true)
    (he : encode i = .rb p) : decode (.rb w) = .ok i ↔ w &&& 0x1FFFFFFFFFF = p := by
  have hall : w &&& 0x1FFFFFFFFFF = w := BitVec.and_allOnes
  rw [decode_rb_eq_ok_iff hi, he, hall, Encoded.rb.injEq, eq_comm]

/-- A row with an operand in DATA, written there by `f`, matches the writes at its offset of the values `f` gives. -/
theorem exists_decode_iff {n : Nat} {mk : BitVec n → Instr} {f : BitVec n → Word} (off : Byte) (mask pattern : Word)
    (w : RbWord) (hi : ∀ v, WellFormed (mk v) = true) (he : ∀ v, encode (mk v) = .rb (rbPack true off (f v)))
    (hf : ∀ x : Word, x &&& mask = pattern ↔ ∃ v, f v = x) :
    (∃ v, decode (.rb w) = .ok (mk v)) ↔ w &&& rbPack true 0xFF mask = rbPack true off pattern := by
  rw [meets_row_iff, hf]
  constructor
  · rintro ⟨v, hv⟩
    have hw : rbPack true off (f v) = w := by simpa [he] using (decode_rb_eq_ok_iff (hi v)).1 hv
    obtain ⟨hwrite, hoff, hdata⟩ := RbWord.eq_rbPack_iff.1 hw.symm
    exact ⟨hwrite, hoff, v, hdata.symm⟩
  · rintro ⟨hwrite, hoff, v, hdata⟩
    refine ⟨v, (decode_rb_eq_ok_iff (hi v)).2 ?_⟩
    rw [he, RbWord.eq_rbPack_iff.2 ⟨hwrite, hoff, hdata.symm⟩]

/-- The words without a bit above `n` are the `n`-bit values, zero-extended (R107 to R109). -/
theorem and_high_eq_zero_iff {n m : Nat} (h : n + m = 32) (x : Word) :
    x &&& (BitVec.allOnes 32 <<< n) = 0 ↔ ∃ v : BitVec n, v.setWidth 32 = x := by
  rw [← BitVec.shiftLeft_ushiftRight]
  constructor
  · intro hx
    refine ⟨_, setWidth_extract_low (n := n) (m := m) x h ?_⟩
    apply BitVec.eq_of_getLsbD_eq
    intro i hi
    have hni : n + i < 32 := by omega
    simpa [hi, hni] using congrArg (fun v => v.getLsbD (n + i)) hx
  · rintro ⟨v, rfl⟩
    have hv : v.setWidth 32 >>> n = 0 := by
      apply BitVec.eq_of_getLsbD_eq
      intro i hi
      simp
    simp [hv]

/-- The CONTROL words with START and STOP both 1 are the arm values (R110). -/
theorem and_three_eq_three_iff (x : Word) :
    x &&& 3 = 3 ↔ ∃ e : BitVec 30, (e.setWidth 32 <<< 2) ||| 3 = x := by
  refine (and_three_eq_three_iff_mod x).trans ?_
  rw [← extract_low_two_eq_three_iff]
  constructor
  · exact fun hx => ⟨_, arm_extract x hx⟩
  · rintro ⟨e, rfl⟩
    exact low_armBits e

/-- A whole word is masked by nothing and is any value (R112). -/
theorem and_zero_eq_zero_iff (x : Word) : x &&& 0 = 0 ↔ ∃ v : Word, v = x := by simp

/-- Settles O3: five rows fix every bit, three leave a zero-extended operand free, CONTROL's leaves bits 31:2 free, and
CFGBUS's three leave the whole of DATA free. -/
theorem twelveRowsDecodeByMatchAndMask : Obligations.TwelveRowsDecodeByMatchAndMask := by
  intro w
  exact ⟨decode_iff_of_full_mask w rfl rfl, decode_iff_of_full_mask w rfl rfl, decode_iff_of_full_mask w rfl rfl,
    decode_iff_of_full_mask w rfl rfl, decode_iff_of_full_mask w rfl rfl,
    exists_decode_iff 0x98 0xFFFF0000 0 w (fun _ => rfl) (fun _ => rfl) (and_high_eq_zero_iff (n := 16) (m := 16) rfl),
    exists_decode_iff 0x9C 0xFFFFFF00 0 w (fun _ => rfl) (fun _ => rfl) (and_high_eq_zero_iff (n := 8) (m := 24) rfl),
    exists_decode_iff 0xA4 3 3 w (fun _ => rfl) (fun _ => rfl) and_three_eq_three_iff,
    exists_decode_iff 0xAC 0xFFFFFF80 0 w (fun _ => rfl) (fun _ => rfl) (and_high_eq_zero_iff (n := 7) (m := 25) rfl),
    exists_decode_iff 0xB0 0 0 w (fun _ => rfl) (fun _ => rfl) and_zero_eq_zero_iff,
    exists_decode_iff 0xB4 0 0 w (fun _ => rfl) (fun _ => rfl) and_zero_eq_zero_iff,
    exists_decode_iff 0xB8 0 0 w (fun _ => rfl) (fun _ => rfl) and_zero_eq_zero_iff⟩

/-! ### The requests of SEQ (R104) -/

theorem CtrlReg.offset_inj {r r' : CtrlReg} (h : r.offset = r'.offset) : r = r' :=
  Option.some.inj (by rw [← CtrlReg.ofOffset?_offset, h, CtrlReg.ofOffset?_offset])

/-- A request is known from its words. -/
theorem Request.word_inj {q q' : Request} (h : q.word = q'.word) : q = q' := by
  cases q <;> cases q' <;> simp only [Request.word, rbPack_inj] at h
  case read.read r r' =>
    obtain ⟨-, hoff, -⟩ := h
    rw [CtrlReg.offset_inj hoff]
  case write.write r v r' v' =>
    obtain ⟨-, hoff, hv⟩ := h
    rw [CtrlReg.offset_inj hoff, hv]
  case read.write => cases h.1
  case write.read => cases h.1

/-- READ or WRITE of a request's register (R106). -/
def Request.primitive : Request → Instr
  | .read r => .read r.offset
  | .write r v => .write r.offset v

theorem Request.eq_primitive {i : Instr} (q : Request) (h : encode i = .rb q.word)
    (hi : isSequencerRequest i = false) : i = q.primitive := by
  cases q with
  | read r => exact eq_primitive_of_encode h hi
  | write r v => exact eq_primitive_of_encode h hi

/-- The request is one of the twelve: its words decode to an instruction with a row of its own. -/
def Request.IsOneOfTwelve (q : Request) : Prop :=
  ∃ i, decode (.rb q.word) = .ok i ∧ isSequencerRequest i = true

theorem Request.isOneOfTwelve_write {r : CtrlReg} {v : Word} {i : Instr} (hd : decodeWrite r.offset v = i)
    (hi : isSequencerRequest i = true) : (Request.write r v).IsOneOfTwelve :=
  ⟨i, by rw [Request.word, decode_rbPack_write, hd], hi⟩

theorem Request.isOneOfTwelve_read {r : CtrlReg} {i : Instr} (hd : decodeRead r.offset = i)
    (hi : isSequencerRequest i = true) : (Request.read r).IsOneOfTwelve :=
  ⟨i, by rw [Request.word, decode_rbPack_read, hd], hi⟩

/-! ### Table entries and words written out (R102, R117) -/

/-- Settles O4: REG is the upper byte of the word and VAL the lower one. -/
theorem everyEntryWordIsLegal : Obligations.EveryEntryWordIsLegal := by
  intro w
  refine ⟨(CommandEntry.ofWord w).reg, (CommandEntry.ofWord w).val, rfl, ?_⟩
  have hlt := w.isLt
  simp only [CommandEntry.ofWord, BitVec.extractLsb'_toNat, Nat.shiftRight_eq_div_pow]
  omega

/-- Settles O5: each word is decoded by evaluation. -/
theorem specWordsDecode : Obligations.SpecWordsDecode := by
  unfold Obligations.SpecWordsDecode
  decide

/-! ### Words that name no instruction (R101, R103, R133) -/

theorem decode_read_with_data {w : RbWord} (hw : w.isWrite = false) (hdata : w.dataField ≠ 0) :
    decode (.rb w) = .error .readWithData := by
  simp only [decode, decodeRb, hw]
  exact if_neg hdata

theorem decode_not_a_modify_pair {rd wr : RbWord} (mask : Word) (h : ¬ Machine.isModifyPair rd wr) :
    decode (.pair rd wr mask) = .error .notAModifyPair :=
  if_neg h

end Sys2Proof

namespace Sys2Proof.Machine

/-- What HOST presents to an idle machine is the next instruction (log 4). -/
theorem State.fetch_presented {s : State} {e : Encoded} {rest : List Encoded} (ho : s.op = .none)
    (hm : s.modifying = none) (hh : s.hostIn = e :: rest) : s.fetch = some e := by
  simp [State.fetch, ho, hm, hh]

/-- Settles O36, by what each of the three forms decodes to. -/
theorem wordsWithoutAnInstruction : Obligations.WordsWithoutAnInstruction := by
  intro s e rest ho hm hh
  have hf := State.fetch_presented ho hm hh
  refine ⟨?_, ?_, ?_⟩
  · rintro r rfl
    have hd : decode (.hc 0 r) = .error .noOperation := rfl
    simp only [step, hf, hd, State.consume_idle ho, hh, List.tail_cons]
  · rintro w rfl hw hdata
    simp [step, hf, decode_read_with_data hw hdata]
  · rintro a b m rfl hpair
    simp [step, hf, decode_not_a_modify_pair m hpair]

/-! ### The twelve requests between operations (R106, R135) -/

/-- Each of the twelve instructions issues the request of its own words (R104). -/
theorem exec_issues {i : Instr} (hi : isSequencerRequest i = true) :
    (∃ r v f, encode i = .rb (Request.write r v).word ∧ ∀ s, exec i s = State.issueWrite r v f s) ∨
    (∃ r f, encode i = .rb (Request.read r).word ∧ ∀ s, exec i s = State.issueRead r f s) := by
  cases i with
  | rdIrqraw => exact .inr ⟨.irqStatusRaw, _, rfl, fun _ => by rw [exec, execRdIrqraw]⟩
  | rdSyss => exact .inr ⟨.resetStatus, _, rfl, fun _ => by rw [exec, execRdSyss]⟩
  | srst => exact .inl ⟨.softReset, srstCmd, _, rfl, fun _ => by rw [exec, execSrst]⟩
  | clrXrdy => exact .inl ⟨.irqStatusRaw, xrdyClr, _, rfl, fun _ => by rw [exec, execClrXrdy]⟩
  | wrBuf => exact .inl ⟨.fifoBuffer, fifoCfg, _, rfl, fun _ => by rw [exec, execWrBuf]⟩
  | wrCnt n => exact .inl ⟨.byteCount, zext32 n, _, rfl, fun _ => by rw [exec, execWrCnt]⟩
  | wrData b => exact .inl ⟨.data, zext32 b, _, rfl, fun _ => by rw [exec, execWrData]⟩
  | wrCon en => exact .inl ⟨.control, armWord en, _, rfl, fun _ => by rw [exec, execWrCon]⟩
  | wrSa a => exact .inl ⟨.slaveAddr, zext32 a, _, rfl, fun _ => by rw [exec, execWrSa]⟩
  | wrPsc v => exact .inl ⟨.prescale, v, _, rfl, fun _ => by rw [exec, execWrPsc]⟩
  | wrScll v => exact .inl ⟨.clockLow, v, _, rfl, fun _ => by rw [exec, execWrScll]⟩
  | wrSclh v => exact .inl ⟨.clockHigh, v, _, rfl, fun _ => by rw [exec, execWrSclh]⟩
  | regwr | cfgbus | xfer | runtable | read | write | modify => cases hi

theorem exec_read_idle {s : State} (r : CtrlReg) (ho : s.op = .none) :
    exec (.read r.offset) s = .next (s.regRead r) :=
  (State.atOffset_mapped _).trans (State.primitive_idle _ ho)

/-- At idle an instruction with a request's words is the primitive of that request (log 12). -/
theorem exec_eq_primitive_idle {s : State} {i : Instr} (q : Request) (ho : s.op = .none) (he : encode i = .rb q.word) :
    exec i s = exec q.primitive s := by
  cases hi : isSequencerRequest i with
  | false => rw [q.eq_primitive he hi]
  | true =>
    rcases exec_issues hi with ⟨r, v, f, he', hx⟩ | ⟨r, f, he', hx⟩
    · obtain rfl : q = .write r v := Request.word_inj (Encoded.rb.inj (he.symm.trans he'))
      rw [hx, State.issueWrite_idle r v f ho]
      exact (exec_write_idle r v ho).symm
    · obtain rfl : q = .read r := Request.word_inj (Encoded.rb.inj (he.symm.trans he'))
      rw [hx, State.issueRead_idle r f ho]
      exact (exec_read_idle r ho).symm

/-- Settles O33: a decoded instruction is encoded as the request it was decoded from. -/
theorem idleRequestIsThePrimitive : Obligations.IdleRequestIsThePrimitive := by
  intro s r ho
  exact ⟨fun v => exec_eq_primitive_idle (.write r v) ho (encode_decodeWrite r.offset v),
    exec_eq_primitive_idle (.read r) ho (encode_decodeRead r.offset)⟩

/-! ### The three writes of CFGBUS (R142 to R145) -/

/-- Settles O22: each write is the request SEQ emits at its position. -/
theorem configurationWrites : Obligations.ConfigurationWrites := by
  intro s ho
  have hrequest := State.request_config ho
  refine ⟨fun hc => ?_, fun hc => ?_, fun hc => ?_⟩
  · have hr : s.request = some (.write .prescale s.cfg.psc) := by simp [hrequest, State.configRequest, hc]
    exact ⟨{ s.regWrite .prescale s.cfg.psc with cs := 1 },
      by rw [exec, execWrPsc, State.issueWrite_emitted _ hr], rfl⟩
  · have hr : s.request = some (.write .clockLow s.cfg.scll) := by simp [hrequest, State.configRequest, hc]
    exact ⟨{ s.regWrite .clockLow s.cfg.scll with cs := 2 },
      by rw [exec, execWrScll, State.issueWrite_emitted _ hr], rfl⟩
  · have hr : s.request = some (.write .clockHigh s.cfg.sclh) := by simp [hrequest, State.configRequest, hc]
    exact ⟨State.configDone { s.regWrite .clockHigh s.cfg.sclh with cs := 3 },
      by rw [exec, execWrSclh, State.issueWrite_emitted _ hr], rfl⟩

/-! ### The check of a trace (R115) -/

/-- Offset by offset, the check asks for the data that the row there asks for. -/
theorem Event.isViolation_write (off : Byte) (v : Word) : (Event.write off v).isViolation = !hasWriteRow off v := by
  rw [Bool.eq_iff_iff]
  simp only [Event.isViolation]
  split_ifs <;> simp_all [hasWriteRow, and_three_eq_three_iff_mod, and_assoc]

theorem Event.isViolation_read (off : Byte) (answer : Word) :
    (Event.read off answer).isViolation = !(off == 0x24 || off == 0x90) := by
  rw [Bool.eq_iff_iff]
  simp [Event.isViolation]

/-- A write that decodes to one of the twelve requests conforms. -/
theorem Event.write_conforms {off : Byte} {v : Word} {i : Instr} (hd : decodeWrite off v = i)
    (hi : isSequencerRequest i = true) : (Event.write off v).isViolation = false := by
  rw [Event.isViolation_write, ← isSequencerRequest_decodeWrite, hd, hi]
  rfl

/-- A step of an operation adds to the trace nothing or an event that conforms. -/
inductive State.LogsConforming (s t : State) : Prop where
  | quiet (trace : t.trace = s.trace)
  | event (e : Event) (conforms : e.isViolation = false) (trace : t.trace = s.trace ++ [e])

theorem State.LogsConforming.traceConforms_eq {s t : State} (h : s.LogsConforming t) :
    t.traceConforms = s.traceConforms := by
  cases h with
  | quiet ht => simp [State.traceConforms, ht]
  | event e hc ht => simp [State.traceConforms, ht, hc]

theorem step_busy_logsConforming {s t : State} (ho : s.op ≠ .none) (h : step s = .next t) : s.LogsConforming t := by
  rcases step_busy_cases ho h with ⟨-, -, rfl⟩ | ⟨-, -, rfl⟩ | ⟨-, -, rfl⟩ | ⟨-, -, rfl⟩ |
    ⟨-, -, -, e, -, rfl⟩ | ⟨-, -, -, rfl⟩ | ⟨-, rfl⟩ | ⟨-, rfl⟩ | ⟨-, rfl⟩ | ⟨-, rfl⟩ | ⟨-, rfl⟩ | ⟨-, rfl⟩ |
    ⟨-, rfl⟩ | ⟨-, rfl⟩ | ⟨-, rfl⟩ | ⟨-, b, -, rfl⟩ | ⟨-, rfl⟩ | ⟨-, rfl⟩ | ⟨-, rfl⟩
  · exact .event _ (Event.write_conforms (decodeWrite_wrPsc _) rfl) rfl -- CFGBUS: its three writes, then the exit
  · exact .event _ (Event.write_conforms (decodeWrite_wrScll _) rfl) rfl
  · exact .event _ (Event.write_conforms (decodeWrite_wrSclh _) rfl) rfl
  · exact .quiet rfl
  · exact .quiet rfl -- RUNTABLE at u0: an entry, then the exit
  · exact .quiet rfl
  · exact .event _ (Event.write_conforms decodeWrite_srst rfl) rfl -- u1
  · exact .event _ rfl (s.poll_trace pollRdone fun _ => rfl)
  · exact .event _ (Event.write_conforms decodeWrite_wrBuf rfl) rfl
  · exact .event _ (Event.write_conforms (decodeWrite_wrSa _) rfl) rfl
  · exact .event _ (Event.write_conforms (decodeWrite_wrCnt _) rfl) rfl
  · exact .event _ rfl (s.poll_trace pollBb fun _ => rfl) -- u6
  · exact .event _ (Event.write_conforms (decodeWrite_wrCon _) rfl) rfl
  · exact .event .settle rfl rfl
  · exact .event _ rfl (s.poll_trace pollXrdy fun _ => rfl) -- u9
  · exact .event _ (Event.write_conforms (decodeWrite_wrData b) rfl) rfl
  · exact .event .settle rfl rfl
  · exact .event _ (Event.write_conforms decodeWrite_clrXrdy rfl) rfl
  · exact .event _ rfl (s.poll_trace pollBf State.transactionDone_trace) -- u13

/-! ### The request of every control position (R30, R104) -/

theorem State.configRequest_isOneOfTwelve {s : State} {q : Request} (h : s.configRequest = some q) :
    q.IsOneOfTwelve := by
  unfold State.configRequest at h
  split_ifs at h <;> cases h
  · exact Request.isOneOfTwelve_write (decodeWrite_wrPsc _) rfl
  · exact Request.isOneOfTwelve_write (decodeWrite_wrScll _) rfl
  · exact Request.isOneOfTwelve_write (decodeWrite_wrSclh _) rfl

theorem State.microRequest_isOneOfTwelve {s : State} {q : Request} (h : s.microRequest = some q) :
    q.IsOneOfTwelve := by
  unfold State.microRequest at h
  cases hp : s.pc <;> rw [hp] at h
  case u0 | u8 | u11 => cases h
  case u1 => cases h; exact Request.isOneOfTwelve_write decodeWrite_srst rfl
  case u2 => cases h; exact Request.isOneOfTwelve_read decodeRead_syss rfl
  case u3 => cases h; exact Request.isOneOfTwelve_write decodeWrite_wrBuf rfl
  case u4 => cases h; exact Request.isOneOfTwelve_write (decodeWrite_wrSa _) rfl
  case u5 => cases h; exact Request.isOneOfTwelve_write (decodeWrite_wrCnt _) rfl
  case u6 | u9 | u13 => cases h; exact Request.isOneOfTwelve_read decodeRead_irq rfl
  case u7 => cases h; exact Request.isOneOfTwelve_write (decodeWrite_wrCon _) rfl
  case u10 =>
    obtain ⟨b, -, rfl⟩ := Option.map_eq_some_iff.1 h
    exact Request.isOneOfTwelve_write (decodeWrite_wrData b) rfl
  case u12 => cases h; exact Request.isOneOfTwelve_write decodeWrite_clrXrdy rfl

theorem State.request_isOneOfTwelve {s : State} {q : Request} (h : s.request = some q) : q.IsOneOfTwelve := by
  unfold State.request at h
  cases ho : s.op <;> rw [ho] at h
  case none => cases h
  case cfgbus => exact State.configRequest_isOneOfTwelve h
  case xfer | runtable => exact State.microRequest_isOneOfTwelve h

/-- Settles O42: SEQ's requests position by position, a busy step by what it logs, and the check row by row. -/
theorem emittedRequestIsOneOfTwelve : Obligations.EmittedRequestIsOneOfTwelve := by
  refine ⟨fun s q h => State.request_isOneOfTwelve h, fun s t ho h => (step_busy_logsConforming ho h).traceConforms_eq,
    fun off answer => ?_, fun off v => ?_⟩
  · rw [Event.isViolation_read, isSequencerRequest_decodeRead]
  · rw [Event.isViolation_write, isSequencerRequest_decodeWrite]

end Sys2Proof.Machine

/-! ## Family 40_register_interface: READ, WRITE and MODIFY between operations (R83, R84, R131 to R133) -/

namespace Sys2Proof.Machine

/-! ### READ (R131, R84) -/

/-- A read leaves all of the controller but the two status registers as it was (log 3, log 27). -/
theorem Controller.observe_frame (r : CtrlReg) (v : Word) (c : Controller) :
    c.observe r v =
      { c with irqStatusRaw := (c.observe r v).irqStatusRaw, resetStatus := (c.observe r v).resetStatus } := by
  cases r <;> rfl

/-- Settles O28: READ is one read request, and an answered read changes only the status register it is of. -/
theorem readIssuesOneRequest : Obligations.ReadIssuesOneRequest := by
  intro s r ho
  refine ⟨s.regRead r, exec_read_idle r ho, ?_, fun hr => ?_, fun hr => ?_, ?_⟩
  · exact congrArg (fun c => { s.regRead r with ctrl := c }) (s.ctrl.observe_frame r s.answer)
  · rw [State.regRead_ctrl, Controller.observe_irqStatusRaw, if_neg hr]
  · rw [State.regRead_ctrl, Controller.observe_resetStatus, if_neg hr]
  · rintro (rfl | rfl) <;> rfl

/-! ### What a write leaves in the controller (R53, R54 to R56, R83) -/

section
variable (k : Nat) (v : Word) (c : Controller)

/-- A write of DATA, of a byte or not, holds the word and touches besides it only what was handed over, the counter and
the emptiness (R83, log 8). -/
theorem Controller.writeData_frame :
    c.writeData k v =
      { c with
        data := v
        byteCounter := (c.writeData k v).byteCounter
        txBytes := (c.writeData k v).txBytes
        dataEmpty := (c.writeData k v).dataEmpty } := by
  unfold Controller.writeData
  split <;> rfl

variable {r : CtrlReg}

/-- Eight registers hold the word written; the others trigger, clear flags or are left free (R41, R82, log 8). -/
theorem Controller.write_reg_same (hs : r ≠ .softReset) (hi : r ≠ .irqStatusRaw) (hr : r ≠ .resetStatus) :
    (c.write k r v).reg r = v := by
  cases r with
  | softReset | irqStatusRaw | resetStatus => contradiction
  | data => exact congrArg Controller.data (c.writeData_frame k v)
  | fifoBuffer | byteCount | control | slaveAddr | prescale | clockLow | clockHigh => rfl

/-- But for the soft reset, a write changes no register other than its own (log 31). -/
theorem Controller.write_reg_other {q : CtrlReg} (hs : r ≠ .softReset) (hq : q ≠ r) :
    (c.write k r v).reg q = c.reg q := by
  cases r with
  | softReset => contradiction
  | data =>
    refine (congrArg (Controller.reg · q) (c.writeData_frame k v)).trans ?_
    cases q <;> trivial -- `hq` excludes the register written, the others are kept
  | irqStatusRaw | resetStatus | fifoBuffer | byteCount | control | slaveAddr | prescale | clockLow | clockHigh =>
    cases q <;> trivial

/-- Only BYTE-COUNT, DATA and the soft reset touch the counter (R54). -/
theorem Controller.write_byteCounter (hs : r ≠ .softReset) (hb : r ≠ .byteCount) (hd : r ≠ .data) :
    (c.write k r v).byteCounter = c.byteCounter := by
  cases r with
  | softReset | byteCount | data => contradiction
  | irqStatusRaw | resetStatus | fifoBuffer | control | slaveAddr | prescale | clockLow | clockHigh => rfl

/-- Only FIFO/BUFFER, DATA and the soft reset touch the transmit buffer (R55). -/
theorem Controller.write_txBytes (hs : r ≠ .softReset) (hf : r ≠ .fifoBuffer) (hd : r ≠ .data) :
    (c.write k r v).txBytes = c.txBytes := by
  cases r with
  | softReset | fifoBuffer | data => contradiction
  | irqStatusRaw | resetStatus | byteCount | control | slaveAddr | prescale | clockLow | clockHigh => rfl

/-- Only FIFO/BUFFER and the soft reset touch the fill threshold (R44). -/
theorem Controller.write_threshold (hs : r ≠ .softReset) (hf : r ≠ .fifoBuffer) :
    (c.write k r v).threshold = c.threshold := by
  cases r with
  | softReset | fifoBuffer => contradiction
  | data => exact (congrArg Controller.threshold (c.writeData_frame k v) :)
  | irqStatusRaw | resetStatus | byteCount | control | slaveAddr | prescale | clockLow | clockHigh => rfl

/-- Only DATA and the soft reset touch the emptiness of the data register (R83, log 31). -/
theorem Controller.write_dataEmpty (hs : r ≠ .softReset) (hd : r ≠ .data) :
    (c.write k r v).dataEmpty = c.dataEmpty := by
  cases r with
  | softReset | data => contradiction
  | irqStatusRaw | resetStatus | fifoBuffer | byteCount | control | slaveAddr | prescale | clockLow | clockHigh => rfl

/-- Only CONTROL and the soft reset touch the frame in progress (R56). -/
theorem Controller.write_framing (hs : r ≠ .softReset) (hc : r ≠ .control) :
    (c.write k r v).framing = c.framing := by
  cases r with
  | softReset | control => contradiction
  | data => exact (congrArg Controller.framing (c.writeData_frame k v) :)
  | irqStatusRaw | resetStatus | fifoBuffer | byteCount | slaveAddr | prescale | clockLow | clockHigh => rfl

end

/-! ### WRITE (R132) -/

/-- Settles O29: WRITE is one write request; what it does in the controller is said part by part above. -/
theorem writeIssuesOneRequest : Obligations.WriteIssuesOneRequest := by
  intro s r v ho
  exact ⟨s.regWrite r v, exec_write_idle r v ho, rfl,
    Controller.write_reg_same _ v s.ctrl,
    fun hs _ => Controller.write_reg_other _ v s.ctrl hs,
    Controller.write_byteCounter _ v s.ctrl,
    Controller.write_txBytes _ v s.ctrl,
    Controller.write_threshold _ v s.ctrl,
    Controller.write_dataEmpty _ v s.ctrl,
    Controller.write_framing _ v s.ctrl⟩

/-! ### MODIFY (R133, R80) -/

theorem exec_modify_idle {s : State} (r : CtrlReg) (mask value : Word) (ho : s.op = .none) :
    exec (.modify r.offset mask value) s = .next (s.startModify r mask value) :=
  (State.atOffset_mapped _).trans (State.primitive_idle _ ho)

/-- The state in which the write of a MODIFY is issued: CTRL has had its turn, and no write is pending (R80, log 14). -/
def State.modifyTurn (s : State) : State :=
  { s with modifying := none, ctrl := s.ctrl.statusTurn s.reqs, reqs := s.reqs + 1 }

theorem State.finishModify_eq (m : ModifyWrite) (s : State) :
    s.finishModify m = s.modifyTurn.regWrite m.reg m.value := rfl

/-- A pending write is issued next, whatever HOST presents (R133). -/
theorem step_modifying {s : State} {m : ModifyWrite} (ho : s.op = .none) (hm : s.modifying = some m) :
    step s = .next (s.finishModify m) := by
  rcases step_idle ho with ⟨m', hm', hs⟩ | ⟨hn, -⟩ | ⟨e, es, hn, -⟩
  · obtain rfl : m = m' := Option.some.inj (hm.symm.trans hm')
    exact hs
  · cases hm.symm.trans hn
  · cases hm.symm.trans hn

theorem modifyWord_getLsbD (old mask value : Word) {k : Nat} (hk : k < 32) :
    (modifyWord old mask value).getLsbD k = if mask.getLsbD k then value.getLsbD k else old.getLsbD k := by
  simp only [modifyWord, BitVec.getLsbD_or, BitVec.getLsbD_and, BitVec.getLsbD_not]
  cases mask.getLsbD k <;> simp [hk]

/-- The three flags are bits 4, 8 and 12 (R42). -/
theorem irqFlags_getLsbD {k : Nat} (hk : k = 4 ∨ k = 8 ∨ k = 12) : irqFlags.getLsbD k = true := by
  rcases hk with rfl | rfl | rfl <;> decide

/-- Settles O31: the first step is READ's with the write left pending, the second WRITE's after CTRL's turn. -/
theorem modifyIssuesReadThenWrite : Obligations.ModifyIssuesReadThenWrite := by
  intro s r mask value ho
  have hpending : (s.startModify r mask value).modifying = some ⟨r, modifyWord s.answer mask value⟩ := rfl
  refine ⟨s.regRead r, s.startModify r mask value, (s.startModify r mask value).modifyTurn,
    (s.startModify r mask value).finishModify ⟨r, modifyWord s.answer mask value⟩, modifyWord s.answer mask value,
    exec_read_idle r ho, exec_modify_idle r mask value ho, rfl, step_modifying ho hpending, ?_, rfl, ?_,
    fun k hk => modifyWord_getLsbD s.answer mask value hk, ?_⟩
  · rw [State.finishModify_eq]
    exact exec_write_idle r _ ho
  · simp
  · rintro rfl k hk hnew
    exact Controller.write_irqStatusRaw_flag (irqFlags_getLsbD hk) hnew

end Sys2Proof.Machine

/-! ## Family 41_bus_configuration: CFGBUS accepted and run, and the bit rate that a transaction keeps (R140 to R148) -/

namespace Sys2Proof.Machine

/-! ### The bit-rate registers (R49 to R51, R57) -/

/-- What fixes the bit rate: PRESCALE, CLOCK-LOW and CLOCK-HIGH (R57). -/
def Controller.bitRateRegisters (c : Controller) : Word × Word × Word := (c.prescale, c.clockLow, c.clockHigh)

@[simp] theorem Controller.observe_bitRateRegisters (r : CtrlReg) (v : Word) (c : Controller) :
    (c.observe r v).bitRateRegisters = c.bitRateRegisters := by
  simp [Controller.bitRateRegisters]

theorem Controller.write_srstCmd (k : Nat) (c : Controller) :
    c.write k .softReset srstCmd = c.softResetEffect k := by
  simp [Controller.write, Controller.writeSoftReset]

/-- The soft reset SEQ triggers spares them (D22, log 7). -/
theorem Controller.write_srstCmd_bitRateRegisters (k : Nat) (c : Controller) :
    (c.write k .softReset srstCmd).bitRateRegisters = c.bitRateRegisters :=
  (congrArg Controller.bitRateRegisters (c.write_srstCmd k) :)

/-- So does a write of a register that is neither SOFT-RESET nor one of the three (log 31). -/
theorem Controller.write_bitRateRegisters (k : Nat) {r : CtrlReg} (v : Word) (c : Controller)
    (hr : r ∉ [.softReset, .prescale, .clockLow, .clockHigh]) :
    (c.write k r v).bitRateRegisters = c.bitRateRegisters := by
  simp only [List.mem_cons, List.not_mem_nil, or_false, not_or] at hr
  obtain ⟨hs, hp, hl, hh⟩ := hr
  have hkept {q : CtrlReg} (hq : r ≠ q) : (c.write k r v).reg q = c.reg q := c.write_reg_other k v hs hq.symm
  exact Prod.ext (hkept hp) (Prod.ext (hkept hl) (hkept hh))

/-- The completion of a transaction leaves the controller as it was but for the frame, which is over (log 11). -/
theorem State.transactionDone_ctrl (s : State) : s.transactionDone.ctrl = { s.ctrl with framing := false } := by
  unfold State.transactionDone
  cases s.op <;> simp

theorem State.transactionDone_bitRateRegisters (s : State) :
    s.transactionDone.ctrl.bitRateRegisters = s.ctrl.bitRateRegisters :=
  (congrArg Controller.bitRateRegisters s.transactionDone_ctrl :)

/-- One step of a poll keeps the bit-rate registers when what it does on a pass keeps them. -/
theorem State.poll_bitRateRegisters (p : PollSpec) {f : State → State} (s : State)
    (hf : ∀ u, (f u).ctrl.bitRateRegisters = u.ctrl.bitRateRegisters) :
    (s.poll p f).ctrl.bitRateRegisters = s.ctrl.bitRateRegisters := by
  rcases s.poll_cases p f with ⟨-, h⟩ | ⟨-, -, h⟩ | ⟨-, -, h⟩ <;> simp [h, hf]

/-- Any step of an operation but CFGBUS: the table loop, then the micro-steps in order. -/
theorem step_bitRateRegisters {s t : State} (ho : s.op ≠ .none) (hcfg : s.op ≠ .cfgbus) (h : step s = .next t) :
    t.ctrl.bitRateRegisters = s.ctrl.bitRateRegisters := by
  rcases step_busy_cases ho h with ⟨hc, -⟩ | ⟨hc, -⟩ | ⟨hc, -⟩ | ⟨hc, -⟩ |
    ⟨-, -, -, e, -, rfl⟩ | ⟨-, -, -, rfl⟩ | ⟨-, rfl⟩ | ⟨-, rfl⟩ | ⟨-, rfl⟩ | ⟨-, rfl⟩ | ⟨-, rfl⟩ | ⟨-, rfl⟩ |
    ⟨-, rfl⟩ | ⟨-, rfl⟩ | ⟨-, rfl⟩ | ⟨-, b, -, rfl⟩ | ⟨-, rfl⟩ | ⟨-, rfl⟩ | ⟨-, rfl⟩
  iterate 4 exact absurd hc hcfg
  · rfl -- RUNTABLE at u0
  · rfl
  · exact Controller.write_srstCmd_bitRateRegisters _ _ -- u1
  · exact s.poll_bitRateRegisters pollRdone fun _ => rfl
  · exact Controller.write_bitRateRegisters _ _ _ (by decide)
  · exact Controller.write_bitRateRegisters _ _ _ (by decide)
  · exact Controller.write_bitRateRegisters _ _ _ (by decide)
  · exact s.poll_bitRateRegisters pollBb fun _ => rfl -- u6
  · exact Controller.write_bitRateRegisters _ _ _ (by decide)
  · rfl
  · exact s.poll_bitRateRegisters pollXrdy fun _ => rfl -- u9
  · exact Controller.write_bitRateRegisters _ _ _ (by decide)
  · rfl
  · exact Controller.write_bitRateRegisters _ _ _ (by decide)
  · exact s.poll_bitRateRegisters pollBf State.transactionDone_bitRateRegisters -- u13

/-- Settles O49: a transaction writes none of the three registers, and its soft reset spares them. -/
theorem transactionKeepsTheBitRate : Obligations.TransactionKeepsTheBitRate := by
  intro s t hop h
  have ho : s.op ≠ .none := by rcases hop with hop | hop <;> simp [hop]
  have hcfg : s.op ≠ .cfgbus := by rcases hop with hop | hop <;> simp [hop]
  simpa only [Controller.bitRateRegisters, Prod.mk.injEq] using step_bitRateRegisters ho hcfg h

/-! ### CFGBUS, from its acceptance to its completion (R140 to R145) -/

/-- A CFGBUS that has been accepted: its three values are taken and none of its writes is made (R140, R62). -/
def State.acceptConfig (psc scll sclh : Word) (s : State) : State :=
  { s with op := .cfgbus, res := .none, cfg := ⟨psc, scll, sclh⟩, cs := 0, pk := 0 }

theorem exec_cfgbus_idle {s : State} (psc scll sclh : Word) (ho : s.op = .none) :
    exec (.cfgbus psc scll sclh) s = .next (s.acceptConfig psc scll sclh) :=
  if_neg (not_not_intro ho)

/-- Settles O23: being busy is the only thing CFGBUS is refused for. -/
theorem cfgbusAcceptedWhenIdle : Obligations.CfgbusAcceptedWhenIdle :=
  fun _ psc scll sclh ho => exec_cfgbus_idle psc scll sclh ho

/-- An idle machine takes the instruction HOST presents and runs it (log 4). -/
theorem step_presented {s : State} {e : Encoded} {i : Instr} {rest : List Encoded} (ho : s.op = .none)
    (hm : s.modifying = none) (hh : s.hostIn = e :: rest) (hd : decode e = .ok i) :
    step s = exec i { s with hostIn := rest } := by
  have hc : s.consume = { s with hostIn := rest } := by rw [State.consume_idle ho, hh, List.tail_cons]
  simp only [step, State.fetch_presented ho hm hh, hd, hc]

/-- The three writes of CFGBUS, in order, and its completion (R142 to R145). -/
def State.configWrites (s : State) : State :=
  State.configDone
    { ((s.regWrite .prescale s.cfg.psc).regWrite .clockLow s.cfg.scll).regWrite .clockHigh s.cfg.sclh with cs := 3 }

/-- CFGBUS runs three steps after its acceptance, one for each write. -/
theorem runFor_configWrites {s : State} (ho : s.op = .cfgbus) (hc : s.cs = 0) : runFor 3 s = .next s.configWrites :=
  calc runFor 3 s
    _ = runFor 2 _ := runFor_step 2 (step_cfg0 ho hc)
    _ = runFor 1 _ := runFor_step 1 (step_cfg1 ho rfl)
    _ = runFor 0 _ := runFor_step 0 (step_cfg2 ho rfl)

theorem State.configWrites_trace (s : State) :
    s.configWrites.trace =
      s.trace ++ [.write 0xB0 s.cfg.psc, .write 0xB4 s.cfg.scll, .write 0xB8 s.cfg.sclh] := by
  simp [State.configWrites, CtrlReg.offset]

/-- Settles O55: one step accepts the command, three make its writes, each keeping what the others wrote (log 31). -/
theorem cfgbusMakesThreeWrites : Obligations.CfgbusMakesThreeWrites := by
  rintro s psc scll sclh r rest ho hm rfl rfl rfl hh
  have haccept : step s = .next (State.acceptConfig r.psc r.scll r.sclh { s with hostIn := rest }) :=
    (step_presented ho hm hh rfl).trans (exec_cfgbus_idle r.psc r.scll r.sclh ho)
  exact ⟨_, (runFor_step 3 haccept).trans (runFor_configWrites rfl rfl), State.configWrites_trace _,
    rfl, rfl, rfl, rfl, rfl, rfl, rfl, rfl, rfl⟩

end Sys2Proof.Machine

/-! ## Family 42_transaction_fsm: XFER, the micro-steps u1 to u13 and a whole transaction (R150 to R169) -/

namespace Sys2Proof.Machine

/-! ### The poll of a micro-step (R105, R180) -/

/-- What the pass of a micro-step's poll does (R154, R158, R187, R161); the other micro-steps poll nothing. -/
def MicroPc.onPass (pc : MicroPc) (t : State) : State :=
  match pc with
  | .u2 => { t with pc := .u3 }
  | .u6 => { t with pc := .u7 }
  | .u9 => { t with pc := .u10, ctrl := t.ctrl.readySeen }
  | .u13 => t.transactionDone
  | .u0 | .u1 | .u3 | .u4 | .u5 | .u7 | .u8 | .u10 | .u11 | .u12 => t

/-- At a micro-step that polls, a step is one step of its poll. -/
theorem step_poll {s : State} {pc : MicroPc} {p : PollSpec} (ht : s.inTransaction pc) (hp : pc.poll? = some p) :
    step s = .next (s.poll p pc.onPass) := by
  cases pc with
  | u2 => cases hp; exact step_u2 ht
  | u6 => cases hp; exact step_u6 ht
  | u9 => cases hp; exact step_u9 ht
  | u13 => cases hp; exact step_u13 ht
  | u0 | u1 | u3 | u4 | u5 | u7 | u8 | u10 | u11 | u12 => cases hp

/-- A read that fails with budget left (R180). -/
theorem State.poll_again {s : State} {p : PollSpec} (f : State → State) (h : s.answer.getLsbD p.bit ≠ p.want)
    (hl : ¬ s.lastRead) : s.poll p f = { s.regRead p.reg with pk := s.pk + 1 } :=
  (State.poll_fail f h).trans (State.pollFailed_again (s := s.regRead p.reg) p.kind hl)

/-- The last allowed read fails (R182, R236). -/
theorem State.poll_timeout {s : State} {p : PollSpec} (f : State → State) (h : s.answer.getLsbD p.bit ≠ p.want)
    (hl : s.lastRead) : s.poll p f = { s.regRead p.reg with pk := s.pk + 1 }.raiseTimeout p.kind :=
  (State.poll_fail f h).trans (State.pollFailed_timeout (s := s.regRead p.reg) p.kind hl)

/-! ### The transition table (R163, R167, R273) -/

@[simp] theorem State.transactionDone_pc (s : State) : s.transactionDone.pc = .u0 := by
  unfold State.transactionDone
  cases s.op <;> simp

/-- One step of a poll passes, stays or times out. -/
theorem State.poll_pcEdge {p : PollSpec} {f : State → State} {s : State} {pc : MicroPc} (hp : s.pc = pc)
    (hpass : pcEdge pc (f (s.regRead p.reg)).pc = true) (hstay : pcEdge pc pc = true) (hout : pcEdge pc .u0 = true) :
    pcEdge s.pc (s.poll p f).pc = true := by
  subst hp
  rcases s.poll_cases p f with ⟨-, h⟩ | ⟨-, -, h⟩ | ⟨-, -, h⟩ <;> rw [h]
  · exact hpass
  · exact hstay
  · exact hout

/-- While a RUNTABLE runs an entry is due or in progress (R203). -/
theorem State.Inv.ci_lt_tlen {s : State} (h : s.Inv) (ho : s.op = .runtable) : s.ci < s.tlen := by
  simp only [State.Inv, ho] at h
  obtain ⟨-, -, -, -, hci, -⟩ := h
  exact hci

/-- Where no transaction can run the machine stands at u0 (R31). -/
theorem State.Inv.pc_of_no_transaction {s : State} (h : s.Inv) (ho : ¬ (s.op = .xfer ∨ s.op = .runtable)) :
    s.pc = .u0 := by
  cases hop : s.op with
  | none => exact h.pc_of_idle hop
  | cfgbus => exact h.pc_of_config hop
  | xfer => exact absurd (.inl hop) ho
  | runtable => exact absurd (.inr hop) ho

/-- Settles O43: the start of an entry, then the micro-steps in order. -/
theorem microPcFollowsTheTransitionTable : Obligations.MicroPcFollowsTheTransitionTable := by
  intro s t hi hop h
  have ho : s.op ≠ .none := by rcases hop with hop | hop <;> simp [hop]
  have hcfg : s.op ≠ .cfgbus := by rcases hop with hop | hop <;> simp [hop]
  rcases step_busy_cases ho h with ⟨hc, -⟩ | ⟨hc, -⟩ | ⟨hc, -⟩ | ⟨hc, -⟩ |
    ⟨-, hp, -, e, -, rfl⟩ | ⟨hr, -, hdone, -⟩ | ⟨⟨-, hp⟩, rfl⟩ | ⟨⟨-, hp⟩, rfl⟩ | ⟨⟨-, hp⟩, rfl⟩ | ⟨⟨-, hp⟩, rfl⟩ |
    ⟨⟨-, hp⟩, rfl⟩ | ⟨⟨-, hp⟩, rfl⟩ | ⟨⟨-, hp⟩, rfl⟩ | ⟨⟨-, hp⟩, rfl⟩ | ⟨⟨-, hp⟩, rfl⟩ | ⟨⟨-, hp⟩, b, -, rfl⟩ |
    ⟨⟨-, hp⟩, rfl⟩ | ⟨⟨-, hp⟩, rfl⟩ | ⟨⟨-, hp⟩, rfl⟩
  iterate 4 exact absurd hc hcfg
  · rw [hp]; rfl -- RUNTABLE at u0: an entry is always due
  · exact absurd (hi.ci_lt_tlen hr) hdone
  · rw [hp]; rfl -- u1
  · exact State.poll_pcEdge hp rfl rfl rfl
  · rw [hp]; rfl
  · rw [hp]; rfl
  · rw [hp]; rfl
  · exact State.poll_pcEdge hp rfl rfl rfl -- u6
  · rw [hp]; rfl
  · rw [hp]; rfl
  · exact State.poll_pcEdge hp rfl rfl rfl -- u9
  · rw [hp]; rfl
  · rw [hp]; rfl
  · rw [hp, State.nextByte_pc]; split <;> rfl -- u12: another byte, or the completion poll
  · exact State.poll_pcEdge hp (by rw [State.transactionDone_pc]; rfl) rfl rfl

theorem pcEdge_into_u1 {pc : MicroPc} (h : pcEdge pc .u1 = true) : pc = .u0 := by
  cases pc <;> simp [pcEdge] at h ⊢

theorem pcEdge_into_u0 {pc : MicroPc} (h : pcEdge pc .u0 = true) : ∃ p, pc.poll? = some p := by
  cases pc <;> simp [pcEdge, MicroPc.poll?] at h ⊢

/-- Of the passes only the last reaches u0, and it records the frame (R161). -/
theorem MicroPc.onPass_into_u0 {pc : MicroPc} {u : State} (h0 : u.pc ≠ .u0) (h : (pc.onPass u).pc = .u0) :
    (pc.onPass u).frames = u.frames ++ [.frame u.sa u.pay] := by
  cases pc with
  | u13 => exact State.transactionDone_frames u
  | u2 | u6 | u9 => cases h
  | u0 | u1 | u3 | u4 | u5 | u7 | u8 | u10 | u11 | u12 => exact absurd h h0

/-- Settles O44: by the transition table u0 is reached from a poll, so by its pass at u13 or by its timeout. -/
theorem transactionsNeverOverlap : Obligations.TransactionsNeverOverlap := by
  intro s t hi h
  by_cases hop : s.op = .xfer ∨ s.op = .runtable
  · have hedge := microPcFollowsTheTransitionTable s t hi hop h
    refine ⟨fun ht => pcEdge_into_u1 (ht ▸ hedge), fun ht h0 => ?_⟩
    obtain ⟨p, hp⟩ := pcEdge_into_u0 (ht ▸ hedge)
    rw [step_poll ⟨hop, rfl⟩ hp] at h
    cases h
    rcases s.poll_cases p s.pc.onPass with ⟨-, h⟩ | ⟨-, -, h⟩ | ⟨-, -, h⟩ <;> rw [h] at ht ⊢
    · exact .inl (MicroPc.onPass_into_u0 (u := s.regRead p.reg) h0 ht)
    · exact absurd ht h0
    · exact .inr ⟨p, hp, rfl⟩
  · have hp := hi.pc_of_no_transaction hop
    exact ⟨fun _ => hp, fun _ h0 => absurd hp h0⟩

/-! ### Idle, the settling delays, and the acceptance of XFER (R151, R152, R160, R189) -/

/-- Settles O8: of what an idle machine can do, only staying needs nothing presented. -/
theorem idleStaysIdle : Obligations.IdleStaysIdle := by
  intro s ho hm hh
  rcases step_idle ho with ⟨m, hm', -⟩ | ⟨-, -, hs⟩ | ⟨e, es, -, hh', -⟩
  · cases hm.symm.trans hm'
  · exact hs
  · cases hh.symm.trans hh'

/-- Settles O9, by the steps of u8 and u11. -/
theorem settlingDelaySteps : Obligations.SettlingDelaySteps :=
  fun _ => ⟨step_u8, step_u11⟩

/-- An XFER that meets every check is accepted (R151). -/
theorem exec_xfer_accepted {s : State} {sa n : Nat} {payload : List Byte} (ho : s.op = .none) (hc : s.cfgd = true)
    (hsa : sa ≤ 0x7F) (h1 : 1 ≤ n) (hn : n ≤ 65535) (hlen : payload.length = n) :
    exec (.xfer sa n payload) s =
      .next { s with op := .xfer, res := .none, sa := BitVec.ofNat 7 sa, pay := payload, cnt := BitVec.ofNat 16 n
                     pk := 0, pc := .u1 } := by
  have hlength : ¬ (n < 1 ∨ 65535 < n ∨ payload.length ≠ n) := by omega
  rw [exec, execXfer, if_neg (not_not_intro ho), if_neg (by simp [hc]), if_neg (by omega), if_neg hlength]

/-- Settles O24, check by check. -/
theorem xferAcceptance : Obligations.XferAcceptance := by
  intro s sa n payload
  refine ⟨fun ho => if_pos ho, fun ho hc => ?_, fun ho hc hsa => ?_, fun ho hc hsa hbad => ?_,
    fun ho hc hsa h1 hn hlen => ?_⟩
  · rw [exec, execXfer, if_neg (not_not_intro ho), if_pos hc]
  · rw [exec, execXfer, if_neg (not_not_intro ho), if_neg (by simp [hc]), if_pos hsa]
  · have hlength : n < 1 ∨ 65535 < n ∨ payload.length ≠ n := by omega
    rw [exec, execXfer, if_neg (not_not_intro ho), if_neg (by simp [hc]), if_neg (by omega), if_pos hlength]
  · have hsa7 : (BitVec.ofNat 7 sa).toNat = sa := Nat.mod_eq_of_lt (by omega)
    have hcnt : (BitVec.ofNat 16 n).toNat = payload.length := (Nat.mod_eq_of_lt (by omega)).trans hlen.symm
    exact ⟨_, exec_xfer_accepted ho hc hsa h1 hn hlen, rfl, hsa7, hcnt⟩

/-! ### The writes of the set-up, at the micro-step that emits each (R153 to R159) -/

theorem State.issueWrite_micro {s : State} {pc : MicroPc} {r : CtrlReg} {v : Word} (f : State → State)
    (ht : s.inTransaction pc) (hm : s.microRequest = some (.write r v)) :
    s.issueWrite r v f = .next (f (s.regWrite r v)) :=
  State.issueWrite_emitted f ((State.request_transaction ht).trans hm)

theorem State.issueRead_micro {s : State} {pc : MicroPc} {r : CtrlReg} (f : State → State) (ht : s.inTransaction pc)
    (hm : s.microRequest = some (.read r)) : s.issueRead r f = .next (f s) :=
  State.issueRead_emitted f ((State.request_transaction ht).trans hm)

theorem zext32_eq_wordOf {n : Nat} (v : BitVec n) : zext32 v = wordOf v := (BitVec.ofNat_toNat 32 v).symm

/-- CON_ENABLE's own bits 1:0 are 0 (R110). -/
theorem conEnableWord_mod_four (p : Params) : (conEnableWord p).toNat % 4 = 0 := by
  simp [conEnableWord, enableWord, BitVec.toNat_shiftLeft, Nat.shiftLeft_eq]

theorem Controller.softResetEffect_resetDone (k : Nat) (c : Controller) : (c.softResetEffect k).resetDone = false := by
  simp [Controller.softResetEffect, Controller.resetDone]

/-- Settles O10: the soft reset leaves RESET-STATUS 0 and spares the bit-rate registers (log 7). -/
theorem srstStartsTheReset : Obligations.SrstStartsTheReset := by
  intro s ht
  have hm : s.microRequest = some (.write .softReset srstCmd) := by simp [State.microRequest, ht.2]
  exact ⟨{ s.regWrite .softReset srstCmd with pc := .u2, pk := 0 },
    by rw [exec, execSrst, State.issueWrite_micro _ ht hm], rfl,
    (congrArg Controller.resetDone (s.ctrl.write_srstCmd s.reqs)).trans (Controller.softResetEffect_resetDone _ _),
    (congrArg Controller.prescale (s.ctrl.write_srstCmd s.reqs) :),
    (congrArg Controller.clockLow (s.ctrl.write_srstCmd s.reqs) :),
    (congrArg Controller.clockHigh (s.ctrl.write_srstCmd s.reqs) :)⟩

/-- Settles O12, by what the write of 0x41 does. -/
theorem wrBufClearsTheFifo : Obligations.WrBufClearsTheFifo := by
  intro s ht
  have hm : s.microRequest = some (.write .fifoBuffer fifoCfg) := by simp [State.microRequest, ht.2]
  refine ⟨{ s.regWrite .fifoBuffer fifoCfg with pc := .u4 },
    by rw [exec, execWrBuf, State.issueWrite_micro _ ht hm], ?_⟩
  exact congrArg (fun c => { s.regWrite .fifoBuffer fifoCfg with pc := .u4, ctrl := c }) (s.ctrl.write_fifoCfg s.reqs)

/-- Settles O13: the address is written zero-extended. -/
theorem wrSaWritesTheSlaveAddress : Obligations.WrSaWritesTheSlaveAddress := by
  intro s ht
  have hm : s.microRequest = some (.write .slaveAddr (zext32 s.sa)) := by simp [State.microRequest, ht.2]
  refine ⟨{ s.regWrite .slaveAddr (zext32 s.sa) with pc := .u5 },
    by rw [exec, execWrSa, State.issueWrite_micro _ ht hm], ?_⟩
  rw [← zext32_eq_wordOf]
  rfl

/-- Settles O14: a count loads the counter whole. -/
theorem wrCntLoadsTheCounter : Obligations.WrCntLoadsTheCounter := by
  intro s ht
  have hm : s.microRequest = some (.write .byteCount (zext32 s.cnt)) := by simp [State.microRequest, ht.2]
  refine ⟨{ s.regWrite .byteCount (zext32 s.cnt) with pc := .u6, pk := 0 },
    by rw [exec, execWrCnt, State.issueWrite_micro _ ht hm], ?_⟩
  rw [← zext32_eq_wordOf]
  exact congrArg (fun c => { s.regWrite .byteCount (zext32 s.cnt) with pc := .u6, pk := 0, ctrl := c })
    (s.ctrl.write_byteCount_zext32 s.reqs s.cnt)

/-- Settles O16: the arm value has START and STOP both set. -/
theorem wrConArmsStartAndStop : Obligations.WrConArmsStartAndStop := by
  intro s ht
  have hm : s.microRequest = some (.write .control (armWord s.par.conEnable)) := by
    simp [State.microRequest, ht.2, armVal]
  refine ⟨{ s.regWrite .control (armWord s.par.conEnable) with pc := .u8 },
    by rw [exec, execWrCon, State.issueWrite_micro _ ht hm], ?_, conEnableWord_mod_four s.par⟩
  exact congrArg (fun c => { s.regWrite .control (armVal s.par) with pc := .u8, ctrl := c })
    (s.ctrl.write_armVal s.reqs s.par)

/-! ### One read of a poll, at the micro-step that polls (R154, R158, R161) -/

theorem exec_rdSyss_poll {s : State} (ht : s.inTransaction .u2) :
    exec .rdSyss s = .next (s.poll pollRdone (MicroPc.onPass .u2)) :=
  State.issueRead_micro _ ht (by simp [State.microRequest, ht.2])

/-- RD.IRQRAW is one step of the poll of the micro-step, at each of the three that read IRQ-STATUS-RAW (R105). -/
theorem exec_rdIrqraw_poll {s : State} {pc : MicroPc} {p : PollSpec} (ht : s.inTransaction pc) (hp : pc.poll? = some p)
    (h2 : pc ≠ .u2) : exec .rdIrqraw s = .next (s.poll p pc.onPass) := by
  cases pc with
  | u2 => exact absurd rfl h2
  | u6 | u9 | u13 =>
    cases hp
    rw [exec, execRdIrqraw, State.issueRead_micro _ ht (by simp [State.microRequest, ht.2]), State.pollIrq, ht.2]
    rfl
  | u0 | u1 | u3 | u4 | u5 | u7 | u8 | u10 | u11 | u12 => cases hp

@[simp] theorem State.transactionDone_reqs (s : State) : s.transactionDone.reqs = s.reqs := by
  unfold State.transactionDone
  cases s.op <;> simp

theorem MicroPc.onPass_reqs (pc : MicroPc) (u : State) : (pc.onPass u).reqs = u.reqs := by
  cases pc with
  | u13 => exact State.transactionDone_reqs u
  | u0 | u1 | u2 | u3 | u4 | u5 | u6 | u7 | u8 | u9 | u10 | u11 | u12 => rfl

/-- One step of a poll draws one free value, whatever comes of it (log 2). -/
theorem State.poll_reqs (p : PollSpec) (pc : MicroPc) (s : State) : (s.poll p pc.onPass).reqs = s.reqs + 1 := by
  rcases s.poll_cases p pc.onPass with ⟨-, h⟩ | ⟨-, -, h⟩ | ⟨-, -, h⟩ <;> simp [h, MicroPc.onPass_reqs]

/-- Before the arm write a timeout leaves the frame list (R169, R236). -/
theorem State.poll_timeout_unarmed {s : State} {p : PollSpec} (f : State → State) (hpc : ¬ (s.pc = .u9 ∨ s.pc = .u13))
    (h : s.answer.getLsbD p.bit ≠ p.want) (hl : s.lastRead) :
    s.poll p f =
      { s.regRead p.reg with
        pk := s.pk + 1, res := .timeout p.kind, pc := .u0, op := .none
        fidx := if s.op = .runtable then s.ci else 0 } := by
  have hframes : s.framesAfterTimeout = s.frames := if_neg hpc
  rw [State.poll_timeout f h hl]
  exact congrArg (fun fr => { State.raiseTimeout p.kind { s.regRead p.reg with pk := s.pk + 1 } with frames := fr })
    hframes

/-- After the arm write a timeout leaves the marker Unknown (R169, R236). -/
theorem State.poll_timeout_armed {s : State} {p : PollSpec} (f : State → State) (hpc : s.pc = .u9 ∨ s.pc = .u13)
    (h : s.answer.getLsbD p.bit ≠ p.want) (hl : s.lastRead) :
    s.poll p f =
      { s.regRead p.reg with
        pk := s.pk + 1, res := .timeout p.kind, pc := .u0, op := .none
        fidx := if s.op = .runtable then s.ci else 0
        frames := s.frames ++ [.unknown s.sa] } := by
  have hframes : s.framesAfterTimeout = s.frames ++ [.unknown s.sa] := if_pos hpc
  rw [State.poll_timeout f h hl]
  exact congrArg (fun fr => { State.raiseTimeout p.kind { s.regRead p.reg with pk := s.pk + 1 } with frames := fr })
    hframes

/-- Settles O11, by what one step of a poll does. -/
theorem resetPollRead : Obligations.ResetPollRead := by
  intro s ht
  refine ⟨s.poll pollRdone (MicroPc.onPass .u2), s.regRead .resetStatus, exec_rdSyss_poll ht, ?_,
    fun hv => State.poll_pass _ hv,
    fun hv hl => State.poll_again _ (Bool.eq_false_iff.1 hv) hl,
    fun hv hl => State.poll_timeout_unarmed _ (by simp [ht.2]) (Bool.eq_false_iff.1 hv) hl⟩
  rw [State.poll_reqs]
  rfl

/-- Settles O15, by what one step of a poll does. -/
theorem busBusyPollRead : Obligations.BusBusyPollRead := by
  intro s ht
  refine ⟨s.poll pollBb (MicroPc.onPass .u6), s.regRead .irqStatusRaw, exec_rdIrqraw_poll ht rfl (by decide), ?_,
    fun hv => State.poll_pass _ hv,
    fun hv hl => State.poll_again _ (Bool.ne_false_iff.2 hv) hl,
    fun hv hl => State.poll_timeout_unarmed _ (by simp [ht.2]) (Bool.ne_false_iff.2 hv) hl⟩
  rw [State.poll_reqs]
  rfl

/-- Settles O20: the pass is the completion of an XFER. -/
theorem completionPollReadOfXfer : Obligations.CompletionPollReadOfXfer := by
  intro s ho hpc
  have ht : s.inTransaction .u13 := ⟨.inl ho, hpc⟩
  refine ⟨s.poll pollBf (MicroPc.onPass .u13), s.regRead .irqStatusRaw, exec_rdIrqraw_poll ht rfl (by decide), ?_,
    fun hv => (State.poll_pass _ hv).trans (State.transactionDone_xfer ho),
    fun hv hl => State.poll_again _ (Bool.eq_false_iff.1 hv) hl,
    fun hv hl => ?_⟩
  · rw [State.poll_reqs]
    rfl
  · rw [State.poll_timeout_armed _ (.inr hpc) (Bool.eq_false_iff.1 hv) hl, if_neg (by simp [ho])]
    rfl

/-- Settles O21: the pass is the completion of an entry, the last or one with another after it. -/
theorem completionPollReadOfEntry : Obligations.CompletionPollReadOfEntry := by
  intro s ho hpc
  have ht : s.inTransaction .u13 := ⟨.inr ho, hpc⟩
  refine ⟨s.poll pollBf (MicroPc.onPass .u13), s.regRead .irqStatusRaw, exec_rdIrqraw_poll ht rfl (by decide), ?_,
    fun hv hmore => (State.poll_pass _ hv).trans (State.transactionDone_more ho hmore),
    fun hv hlast => (State.poll_pass _ hv).trans (State.transactionDone_last ho hlast),
    fun hv hl => State.poll_again _ (Bool.eq_false_iff.1 hv) hl,
    fun hv hl => ?_⟩
  · rw [State.poll_reqs]
    rfl
  · rw [State.poll_timeout_armed _ (.inr hpc) (Bool.eq_false_iff.1 hv) hl, if_pos ho]
    rfl

/-! ### A whole transaction whose polls all pass (R162) -/

/-- The events logged and the answers taken; the controller and the index of free values are whatever they then are. -/
def State.logged (es : List Event) (rest : List Word) (c : Controller) (k : Nat) (s : State) : State :=
  { s with trace := s.trace ++ es, answers := rest, ctrl := c, reqs := k }

/-- A poll goes on reading while its answers fail and its budget lasts (R180, R182). -/
theorem runFor_failedReads {s : State} {pc : MicroPc} {p : PollSpec} {vs rest : List Word} (ht : s.inTransaction pc)
    (hp : pc.poll? = some p) (hfail : ∀ v ∈ vs, v.getLsbD p.bit ≠ p.want)
    (hbudget : ∀ b, s.par.pollBound = some b → s.pk + vs.length < b.val) (ha : s.answers = vs ++ rest) :
    ∃ c k, runFor vs.length s =
      .next { s.logged (vs.map (Event.read p.reg.offset)) rest c k with pk := s.pk + vs.length } := by
  induction vs generalizing s with
  | nil => exact ⟨s.ctrl, s.reqs, by simp [runFor, State.logged, ← show s.answers = rest from ha]⟩
  | cons v vs ih =>
    have hanswer : s.answer = v := State.answer_cons s v (vs ++ rest) ha
    have hlast : ¬ s.lastRead := by
      rintro ⟨b, hb, hle⟩
      have := hbudget b hb
      rw [List.length_cons] at this
      omega
    have hstep : step s = .next { s.regRead p.reg with pk := s.pk + 1 } := by
      rw [step_poll ht hp, State.poll_again _ (hanswer ▸ hfail v List.mem_cons_self) hlast]
    obtain ⟨c, k, hrun⟩ := ih (s := { s.regRead p.reg with pk := s.pk + 1 }) ht
      (fun w hw => hfail w (List.mem_cons_of_mem v hw))
      (fun b hb => by have := hbudget b hb; rw [List.length_cons] at this; simp only; omega)
      (by simp [ha])
    refine ⟨c, k, (runFor_step vs.length hstep).trans (hrun.trans ?_)⟩
    simp [State.logged, hanswer, Nat.add_assoc, Nat.add_comm 1]

/-- A poll that passes inside its budget makes the reads of all its answers (R162). -/
theorem runFor_poll {s : State} {pc : MicroPc} {p : PollSpec} {a : PollAnswers} {rest : List Word}
    (ht : s.inTransaction pc) (hp : pc.poll? = some p) (hpk : s.pk = 0) (hpass : a.Passes s.par p)
    (ha : s.answers = a.all ++ rest) :
    ∃ c k n, runFor (a.fails.length + 1) s =
      .next (pc.onPass { s.logged (a.events p.reg.offset) rest c k with pk := n }) := by
  obtain ⟨hfail, hlast, hbudget⟩ := hpass
  obtain ⟨c, k, hrun⟩ := runFor_failedReads (rest := a.last :: rest) ht hp hfail (by simpa [hpk] using hbudget)
    (by simpa [PollAnswers.all] using ha)
  generalize hu : { s.logged (a.fails.map (Event.read p.reg.offset)) (a.last :: rest) c k with
    pk := s.pk + a.fails.length } = u at hrun
  have hut : u.inTransaction pc := by rw [← hu]; exact ht
  have hanswer : u.answer = a.last := State.answer_cons u a.last rest (by rw [← hu]; rfl)
  have hstep : step u = .next (pc.onPass (u.regRead p.reg)) := by
    rw [step_poll hut hp, State.poll_pass _ (hanswer ▸ hlast)]
  refine ⟨(u.regRead p.reg).ctrl, (u.regRead p.reg).reqs, u.pk,
    (runFor_add 1 hrun).trans ((runFor_step 0 hstep).trans ?_)⟩
  have hread : u.regRead p.reg = { s.logged (a.events p.reg.offset) rest (u.regRead p.reg).ctrl
      (u.regRead p.reg).reqs with pk := u.pk } := by
    simp [← hu, State.logged, State.regRead, PollAnswers.events, PollAnswers.all, State.answer]
  rw [runFor, ← hread]

/-- The soft reset, u1 and u2 (R153, R154). -/
theorem runFor_softReset {s : State} {rst : PollAnswers} {rest : List Word} (ht : s.inTransaction .u1)
    (hrst : rst.Passes s.par pollRdone) (ha : s.answers = rst.all ++ rest) :
    ∃ c k n, runFor (2 + rst.fails.length) s =
      .next { s.logged ([.write 0x10 0x2] ++ rst.events 0x90) rest c k with pc := .u3, pk := n } := by
  obtain ⟨c, k, n, hpoll⟩ := runFor_poll (s := { s.regWrite .softReset srstCmd with pc := .u2, pk := 0 })
    ⟨ht.1, rfl⟩ rfl rfl hrst ha
  refine ⟨c, k, n, ?_⟩
  calc runFor (2 + rst.fails.length) s
    _ = runFor (rst.fails.length + 1 + 1) s := by rw [Nat.add_comm]
    _ = runFor (rst.fails.length + 1) _ := runFor_step _ (step_u1 ht)
    _ = _ := hpoll
    _ = _ := by simp only [State.logged, State.regWrite_trace, List.append_assoc]; rfl

/-- The events of the three writes that configure a transaction (R155 to R157). -/
def configureEvents (sa : BitVec 7) (cnt : BitVec 16) : List Event :=
  [.write 0x94 0x41, .write 0xAC (wordOf sa), .write 0x98 (wordOf cnt)]

/-- The three writes that configure a transaction, u3 to u5. -/
theorem runFor_configure {s : State} (ht : s.inTransaction .u3) :
    ∃ c k, runFor 3 s = .next { s.logged (configureEvents s.sa s.cnt) s.answers c k with pc := .u6, pk := 0 } := by
  refine ⟨((s.ctrl.write s.reqs .fifoBuffer fifoCfg).write (s.reqs + 1) .slaveAddr (zext32 s.sa)).write (s.reqs + 2)
    .byteCount (zext32 s.cnt), s.reqs + 3, ?_⟩
  calc runFor 3 s
    _ = runFor 2 _ := runFor_step 2 (step_u3 ht)
    _ = runFor 1 _ := runFor_step 1 (step_u4 ⟨ht.1, rfl⟩)
    _ = runFor 0 _ := runFor_step 0 (step_u5 ⟨ht.1, rfl⟩)
    _ = _ := by
      simp only [runFor, State.regWrite, State.logged, configureEvents, zext32_eq_wordOf, List.append_assoc]
      rfl

/-- The arming, u7 and u8 (R159, R160). -/
theorem runFor_arm {s : State} (ht : s.inTransaction .u7) :
    ∃ c k, runFor 2 s =
      .next { s.logged [.write 0xA4 (conEnableWord s.par ||| 3), .settle] s.answers c k with
        pc := .u9, bi := 0, pk := 0 } := by
  refine ⟨s.ctrl.write s.reqs .control (armVal s.par), s.reqs + 1, ?_⟩
  calc runFor 2 s
    _ = runFor 1 _ := runFor_step 1 (step_u7 ht)
    _ = runFor 0 _ := runFor_step 0 (step_u8 ⟨ht.1, rfl⟩)
    _ = _ := by
      simp only [runFor, State.settleAfterArm, State.settle, State.regWrite, State.logged, List.append_assoc]
      rfl

/-- From the configuration to the byte loop, u3 to u8 (R155 to R160). -/
theorem runFor_configure_arm {s : State} {bus : PollAnswers} {rest : List Word} (ht : s.inTransaction .u3)
    (hbus : bus.Passes s.par pollBb) (ha : s.answers = bus.all ++ rest) :
    ∃ c k, runFor (6 + bus.fails.length) s =
      .next { s.logged (configureEvents s.sa s.cnt ++ bus.events 0x24 ++
        [.write 0xA4 (conEnableWord s.par ||| 3), .settle]) rest c k with pc := .u9, bi := 0, pk := 0 } := by
  obtain ⟨c₆, k₆, h₆⟩ := runFor_configure ht
  obtain ⟨c₇, k₇, n₇, h₇⟩ := runFor_poll (s := { s.logged (configureEvents s.sa s.cnt) s.answers c₆ k₆ with
    pc := .u6, pk := 0 }) ⟨ht.1, rfl⟩ rfl rfl hbus ha
  obtain ⟨c, k, h⟩ := runFor_arm (s := { s.logged (configureEvents s.sa s.cnt ++ bus.events 0x24) rest c₇ k₇ with
    pc := .u7, pk := n₇ }) ⟨ht.1, rfl⟩
  refine ⟨c, k, ?_⟩
  calc runFor (6 + bus.fails.length) s
    _ = runFor (3 + (bus.fails.length + 1 + 2)) s := by congr 1; omega
    _ = runFor (bus.fails.length + 1 + 2) _ := runFor_add _ h₆
    _ = runFor 2 _ := runFor_add 2 h₇
    _ = runFor 2 _ := by simp only [MicroPc.onPass, State.logged, List.append_assoc]; rfl
    _ = _ := h
    _ = _ := by simp only [State.logged, List.append_assoc]

/-- From u1 to the byte loop (R153 to R160). -/
theorem runFor_setup {s : State} {rst bus : PollAnswers} {rest : List Word} (ht : s.inTransaction .u1)
    (hrst : rst.Passes s.par pollRdone) (hbus : bus.Passes s.par pollBb)
    (ha : s.answers = rst.all ++ (bus.all ++ rest)) :
    ∃ c k, runFor (2 + rst.fails.length + (6 + bus.fails.length)) s =
      .next { s.logged (setupEvents s.par s.sa s.cnt.toNat rst bus) rest c k with pc := .u9, bi := 0, pk := 0 } := by
  obtain ⟨c₃, k₃, n₃, h₃⟩ := runFor_softReset ht hrst ha
  obtain ⟨c, k, h⟩ := runFor_configure_arm (s := { s.logged ([.write 0x10 0x2] ++ rst.events 0x90) (bus.all ++ rest)
    c₃ k₃ with pc := .u3, pk := n₃ }) ⟨ht.1, rfl⟩ hbus rfl
  refine ⟨c, k, (runFor_add _ h₃).trans (h.trans ?_)⟩
  simp [State.logged, setupEvents, configureEvents, wordOf]

/-- One byte, u9 to u12 (R162, R186). -/
theorem runFor_byte {s : State} {b : Byte} {a : PollAnswers} {rest : List Word} (ht : s.inTransaction .u9)
    (hpk : s.pk = 0) (hb : s.pay[s.bi.toNat]? = some b) (hpass : a.Passes s.par pollXrdy)
    (ha : s.answers = a.all ++ rest) :
    ∃ c k, runFor (4 + a.fails.length) s = .next (s.logged (byteEvents b a) rest c k).nextByte := by
  obtain ⟨c, k, n, hpoll⟩ := runFor_poll ht rfl hpk hpass ha
  refine ⟨(c.readySeen.write k .data (zext32 b)).write (k + 1) .irqStatusRaw xrdyClr, k + 2, ?_⟩
  calc runFor (4 + a.fails.length) s
    _ = runFor (a.fails.length + 1 + 3) s := by rw [Nat.add_comm]
    _ = runFor 3 _ := runFor_add 3 hpoll
    _ = runFor 2 _ := runFor_step 2 (step_u10 ⟨ht.1, rfl⟩ hb)
    _ = runFor 1 _ := runFor_step 1 (step_u11 ⟨ht.1, rfl⟩)
    _ = runFor 0 _ := runFor_step 0 (step_u12 ⟨ht.1, rfl⟩)
    _ = _ := by
      simp only [runFor, State.nextByte, State.settleAfterData, State.settle, State.regWrite, State.logged,
        MicroPc.onPass, byteEvents, zext32_eq_wordOf, List.append_assoc]
      rfl

/-- While bytes remain the byte index does not wrap (R171). -/
theorem State.nextByte_more {s : State} (h : s.bi.toNat + 1 < s.cnt.toNat) :
    s.nextByte = { s with bi := s.bi + 1, pk := 0, pc := .u9 } := by
  have hnowrap : (s.bi + 1).toNat = s.bi.toNat + 1 := by bv_omega
  simp only [State.nextByte, hnowrap, if_pos h]

/-- After the last byte the index is the count (R191). -/
theorem State.nextByte_last {s : State} (h : s.bi.toNat + 1 = s.cnt.toNat) :
    s.nextByte = { s with bi := s.cnt, pk := 0, pc := .u13 } := by
  have hend : s.bi + 1 = s.cnt := by bv_omega
  simp only [State.nextByte, hend, if_neg (Nat.lt_irrefl s.cnt.toNat)]

/-- The byte loop sends the bytes of the payload from the byte index on (R162, R166, R191). -/
theorem runFor_bytes {s : State} {bytes : List (Byte × PollAnswers)} {rest : List Word} (ht : s.inTransaction .u9)
    (hpk : s.pk = 0) (hcnt : s.cnt.toNat = s.pay.length) (hne : bytes ≠ [])
    (hpay : s.pay.drop s.bi.toNat = bytes.map Prod.fst) (hpass : ∀ x ∈ bytes, x.2.Passes s.par pollXrdy)
    (ha : s.answers = bytes.flatMap (fun x => x.2.all) ++ rest) :
    ∃ c k, runFor (4 * bytes.length + (bytes.map fun x => x.2.fails.length).sum) s =
      .next { s.logged (bytes.flatMap fun x => byteEvents x.1 x.2) rest c k with
        pc := .u13, bi := s.cnt, pk := 0 } := by
  induction bytes generalizing s with
  | nil => exact absurd rfl hne
  | cons x xs ih =>
    have hb : s.pay[s.bi.toNat]? = some x.1 := by
      rw [← Nat.add_zero s.bi.toNat, ← List.getElem?_drop, hpay]; rfl
    have hlen : s.pay.length - s.bi.toNat = xs.length + 1 := by
      rw [← List.length_drop, hpay, List.length_map, List.length_cons]
    obtain ⟨c, k, hbyte⟩ := runFor_byte (rest := xs.flatMap (fun y => y.2.all) ++ rest) ht hpk hb
      (hpass x List.mem_cons_self) (by simp [ha])
    have hsteps : 4 * (x :: xs).length + ((x :: xs).map fun y => y.2.fails.length).sum =
        4 + x.2.fails.length + (4 * xs.length + (xs.map fun y => y.2.fails.length).sum) := by
      simp only [List.length_cons, List.map_cons, List.sum_cons]; omega
    rw [hsteps, runFor_add _ hbyte]
    by_cases hxs : xs = []
    · subst hxs
      have hlast : s.bi.toNat + 1 = s.cnt.toNat := by simp only [List.length_nil] at hlen; omega
      exact ⟨c, k, by rw [State.nextByte_last (s := s.logged _ _ c k) hlast]; simp [runFor, State.logged]⟩
    · have hpos := List.length_pos_of_ne_nil hxs
      have hmore : s.bi.toNat + 1 < s.cnt.toNat := by omega
      have hnowrap : (s.bi + 1).toNat = s.bi.toNat + 1 := by bv_omega
      have hdrop : s.pay.drop (s.bi + 1).toNat = xs.map Prod.fst := by
        rw [hnowrap, ← List.tail_drop, hpay]; rfl
      rw [State.nextByte_more (s := s.logged _ _ c k) hmore]
      obtain ⟨c', k', hrun⟩ := ih (s := { s.logged (byteEvents x.1 x.2) (xs.flatMap (fun y => y.2.all) ++ rest) c k with
        bi := s.bi + 1, pk := 0, pc := .u9 }) ⟨ht.1, rfl⟩ rfl hcnt hxs hdrop
        (fun y hy => hpass y (List.mem_cons_of_mem x hy)) rfl
      exact ⟨c', k', hrun.trans (by simp [State.logged])⟩

/-- A transaction comes to its completion, with the events of R162 logged and its frame still to be recorded. -/
theorem runFor_transaction {s : State} {bytes : List (Byte × PollAnswers)} {rst bus done : PollAnswers}
    {rest : List Word} (ht : s.inTransaction .u1) (hcount : s.CountInv) (hpay : s.pay = bytes.map Prod.fst)
    (hpass : TransactionPasses s.par bytes rst bus done)
    (ha : s.answers = transactionAnswers bytes rst bus done ++ rest) :
    ∃ c k n, runFor (transactionSteps bytes rst bus done) s =
      .next (State.transactionDone
        { s.logged (transactionEvents s.par s.sa bytes rst bus done) rest c k with
          pc := .u13, bi := s.cnt, pk := n }) := by
  obtain ⟨hcnt, hpos⟩ := hcount
  obtain ⟨hrst, hbus, hbytes, hdone⟩ := hpass
  have hlen : s.pay.length = bytes.length := by rw [hpay, List.length_map]
  have hne : bytes ≠ [] := List.ne_nil_of_length_pos (by omega)
  obtain ⟨c₉, k₉, h₉⟩ := runFor_setup (rest := bytes.flatMap (fun x => x.2.all) ++ (done.all ++ rest)) ht hrst hbus
    (by simpa [transactionAnswers] using ha)
  obtain ⟨c₁₃, k₁₃, h₁₃⟩ := runFor_bytes (s := { s.logged (setupEvents s.par s.sa s.cnt.toNat rst bus)
    (bytes.flatMap (fun x => x.2.all) ++ (done.all ++ rest)) c₉ k₉ with pc := .u9, bi := 0, pk := 0 })
    ⟨ht.1, rfl⟩ rfl hcnt hne hpay hbytes rfl
  obtain ⟨c, k, n, h⟩ := runFor_poll (s := { s.logged (setupEvents s.par s.sa s.cnt.toNat rst bus ++
    bytes.flatMap fun x => byteEvents x.1 x.2) (done.all ++ rest) c₁₃ k₁₃ with pc := .u13, bi := s.cnt, pk := 0 })
    ⟨ht.1, rfl⟩ rfl rfl hdone rfl
  refine ⟨c, k, n, ?_⟩
  calc runFor (transactionSteps bytes rst bus done) s
    _ = runFor (2 + rst.fails.length + (6 + bus.fails.length) +
          (4 * bytes.length + (bytes.map fun x => x.2.fails.length).sum + (done.fails.length + 1))) s := by
      congr 1; rw [transactionSteps]; omega
    _ = runFor (4 * bytes.length + (bytes.map fun x => x.2.fails.length).sum + (done.fails.length + 1)) _ :=
      runFor_add _ h₉
    _ = runFor (done.fails.length + 1) _ := runFor_add _ h₁₃
    _ = runFor (done.fails.length + 1) _ := by simp only [State.logged, List.append_assoc]
    _ = _ := h
    _ = _ := by simp [MicroPc.onPass, State.logged, transactionEvents, hcnt, hlen, pollBf, CtrlReg.offset]

@[simp] theorem State.transactionDone_answers (s : State) : s.transactionDone.answers = s.answers := by
  unfold State.transactionDone
  cases s.op <;> simp

@[simp] theorem State.transactionDone_bi (s : State) : s.transactionDone.bi = s.bi := by
  unfold State.transactionDone
  cases s.op <;> simp

theorem State.transactionDone_ci {s : State} (h : s.op = .runtable) : s.transactionDone.ci = s.ci + 1 := by
  simp [State.transactionDone, h]

/-- Settles O53: the run to the completion, then what the completion leaves. -/
theorem transactionMakesExactlyItsEvents : Obligations.TransactionMakesExactlyItsEvents := by
  intro s bytes rst bus done rest ht hcount hpay hpass ha
  obtain ⟨c, k, n, hrun⟩ := runFor_transaction ht hcount hpay hpass ha
  refine ⟨_, hrun, State.transactionDone_trace _, State.transactionDone_frames _, State.transactionDone_pc _,
    State.transactionDone_answers _, State.transactionDone_bi _, fun ho => ?_,
    fun ho => State.transactionDone_ci (by exact ho)⟩
  rw [State.transactionDone_xfer]
  · exact ⟨rfl, rfl⟩
  · exact ho

end Sys2Proof.Machine

/-! ## Family 43_byte_ready_polling: the polls, the byte loop, and that a running machine steps (R180 to R193, R280) -/

namespace Sys2Proof.Machine

/-! ### While an operation runs there is a next step (R183, R280) -/

/-- At u10 the byte index points into the payload (R171). -/
theorem State.TransactionInv.byte_of_u10 {s : State} (h : s.TransactionInv) (hpc : s.pc = .u10) :
    ∃ b, s.pay[s.bi.toNat]? = some b := by
  obtain ⟨⟨hcnt, -⟩, ⟨hindex, -⟩, -, -⟩ := h
  have hlt : s.bi.toNat < s.cnt.toNat := hindex (by rw [hpc]; decide) (by rw [hpc]; decide)
  exact ⟨_, List.getElem?_eq_getElem (hcnt ▸ hlt)⟩

/-- Every micro-step of a transaction has a next state; u10 needs the byte it writes. -/
theorem step_micro_next {s : State} {pc : MicroPc} (ht : s.inTransaction pc) (h0 : pc ≠ .u0)
    (hbyte : s.pc = .u10 → ∃ b, s.pay[s.bi.toNat]? = some b) : ∃ t, step s = .next t := by
  cases pc with
  | u0 => exact absurd rfl h0
  | u1 => exact ⟨_, step_u1 ht⟩
  | u2 | u6 | u9 | u13 => exact ⟨_, step_poll ht rfl⟩
  | u3 => exact ⟨_, step_u3 ht⟩
  | u4 => exact ⟨_, step_u4 ht⟩
  | u5 => exact ⟨_, step_u5 ht⟩
  | u7 => exact ⟨_, step_u7 ht⟩
  | u8 => exact ⟨_, step_u8 ht⟩
  | u10 =>
    obtain ⟨b, hb⟩ := hbyte ht.2
    exact ⟨_, step_u10 ht hb⟩
  | u11 => exact ⟨_, step_u11 ht⟩
  | u12 => exact ⟨_, step_u12 ht⟩

/-- CFGBUS has a write due until its third (R141 to R144). -/
theorem step_config_next {s : State} (ho : s.op = .cfgbus) (hcs : s.cs ≠ 3) : ∃ t, step s = .next t := by
  have hdue : s.cs = 0 ∨ s.cs = 1 ∨ s.cs = 2 := by bv_omega
  rcases hdue with hc | hc | hc
  · exact ⟨_, step_cfg0 ho hc⟩
  · exact ⟨_, step_cfg1 ho hc⟩
  · exact ⟨_, step_cfg2 ho hc⟩

/-- In the table loop an entry is due, and the table has it (R203). -/
theorem step_entry_next {s : State} (hi : s.Inv) (ho : s.op = .runtable) (hp : s.pc = .u0) :
    ∃ t, step s = .next t := by
  have hci := hi.ci_lt_tlen ho
  simp only [State.Inv, ho] at hi
  obtain ⟨-, -, -, hlen, -, -⟩ := hi
  exact ⟨_, step_entry ho hp hci (List.getElem?_eq_getElem (hlen ▸ hci))⟩

/-- Settles O41: CFGBUS has a write due, the table loop an entry, and each micro-step steps. -/
theorem runningMachineAlwaysSteps : Obligations.RunningMachineAlwaysSteps := by
  intro s hi ho
  have hmicro (ht : s.inTransaction s.pc) (h0 : s.pc ≠ .u0) : ∃ t, step s = .next t :=
    step_micro_next ht h0 ((State.inv_iff_of_inTransaction ht h0).1 hi).2.byte_of_u10
  cases hop : s.op with
  | none => exact absurd hop ho
  | cfgbus =>
    simp only [State.Inv, hop] at hi
    obtain ⟨-, -, hcs, -⟩ := hi
    exact step_config_next hop hcs
  | xfer =>
    refine hmicro ⟨.inl hop, rfl⟩ ?_
    simp only [State.Inv, hop] at hi
    obtain ⟨-, h0, -⟩ := hi
    exact h0
  | runtable =>
    by_cases hp : s.pc = .u0
    · exact step_entry_next hi hop hp
    · exact hmicro ⟨.inr hop, rfl⟩ hp

/-! ### Of a poll's answer only the tested bit matters (R181) -/

/-- The two machines are the same but for the trace and the controller: the registers of SEQ, the inputs and the frame
list agree. -/
def State.SameSequencer (t u : State) : Prop := u = { t with trace := u.trace, ctrl := u.ctrl }

theorem State.SameSequencer.transactionDone {t u : State} (h : t.SameSequencer u) :
    t.transactionDone.SameSequencer u.transactionDone := by
  cases ho : t.op with
  | none | cfgbus =>
    rw [h]
    simp only [State.transactionDone, ho]
    rfl
  | xfer =>
    rw [h, State.transactionDone_xfer ho, State.transactionDone_xfer (by exact ho)]
    rfl
  | runtable =>
    by_cases hm : t.ci + 1 < t.tlen
    · rw [h, State.transactionDone_more ho hm, State.transactionDone_more (by exact ho) (by exact hm)]
      rfl
    · rw [h, State.transactionDone_last ho hm, State.transactionDone_last (by exact ho) (by exact hm)]
      rfl

theorem State.SameSequencer.onPass {t u : State} (h : t.SameSequencer u) (pc : MicroPc) :
    (pc.onPass t).SameSequencer (pc.onPass u) := by
  cases pc with
  | u13 => exact h.transactionDone
  | u2 | u6 | u9 =>
    rw [h]
    rfl
  | u0 | u1 | u3 | u4 | u5 | u7 | u8 | u10 | u11 | u12 => exact h

theorem State.SameSequencer.pollFailed {t u : State} (h : t.SameSequencer u) (kind : TimeoutKind) :
    (t.pollFailed kind).SameSequencer (u.pollFailed kind) := by
  rw [h]
  by_cases hl : t.lastRead
  · rw [State.pollFailed_timeout kind hl, State.pollFailed_timeout kind (by exact hl)]
    rfl
  · rw [State.pollFailed_again kind hl, State.pollFailed_again kind (by exact hl)]
    rfl

/-- Machines with answers that agree in the tested bit, and otherwise the same, pass or fail the poll alike. -/
theorem State.SameSequencer.poll {t u : State} {p : PollSpec} (pc : MicroPc)
    (hread : (t.regRead p.reg).SameSequencer (u.regRead p.reg))
    (hbit : t.answer.getLsbD p.bit = u.answer.getLsbD p.bit) :
    (t.poll p pc.onPass).SameSequencer (u.poll p pc.onPass) := by
  by_cases hpass : t.answer.getLsbD p.bit = p.want
  · rw [State.poll_pass _ hpass, State.poll_pass _ (hbit ▸ hpass)]
    exact hread.onPass pc
  · rw [State.poll_fail _ hpass, State.poll_fail _ (hbit ▸ hpass)]
    exact hread.pollFailed p.kind

/-- Settles O51: the step is one of the poll, and what it does with the answer is the test of the bit. -/
theorem onlyTheTestedBitMatters : Obligations.OnlyTheTestedBitMatters := by
  intro s p v w rest t u hs hp hbit ht hu
  cases (step_poll (s := { s with answers := v :: rest }) hs hp).symm.trans ht
  cases (step_poll (s := { s with answers := w :: rest }) hs hp).symm.trans hu
  exact State.SameSequencer.poll s.pc rfl hbit

/-! ### Runs of a poll whose answers fail (R180, R182, R183, R236) -/

/-- The last allowed read, when it fails: one more event, and the operation is over (R182, R236). -/
theorem step_lastFailedRead {s : State} {pc : MicroPc} {p : PollSpec} {v : Word} {rest : List Word}
    (ht : s.inTransaction pc) (hp : pc.poll? = some p) (ha : s.answers = v :: rest) (hfail : v.getLsbD p.bit ≠ p.want)
    (hl : s.lastRead) :
    ∃ c k, step s =
      .next (State.raiseTimeout p.kind { s.logged [.read p.reg.offset v] rest c k with pk := s.pk + 1 }) := by
  have hanswer : s.answer = v := State.answer_cons s v rest ha
  refine ⟨s.ctrl.observe p.reg v, s.reqs + 1, ?_⟩
  rw [step_poll ht hp, State.poll_timeout _ (hanswer ▸ hfail) hl]
  simp [State.regRead, State.logged, hanswer, ha]

/-- Settles O56: all answers but the last leave budget, and the last takes the timeout. -/
theorem pollTimesOutAfterItsBound : Obligations.PollTimesOutAfterItsBound := by
  intro s p b vs rest ht hp hpk hb hlen hfail ha
  obtain rfl | ⟨ws, v, rfl⟩ := vs.eq_nil_or_concat
  · exact absurd hlen (by have := b.2; simp only [List.length_nil]; omega)
  have hws : ws.length + 1 = b.val := by simpa using hlen
  obtain ⟨c, k, hrun⟩ := runFor_failedReads (vs := ws) (rest := v :: rest) ht hp
    (fun w hw => hfail w (by simp [hw])) (fun b' hb' => by cases hb.symm.trans hb'; omega) (by simp [ha])
  obtain ⟨c', k', hlast⟩ := step_lastFailedRead
    (s := { s.logged (ws.map (Event.read p.reg.offset)) (v :: rest) c k with pk := s.pk + ws.length }) (rest := rest)
    ht hp rfl (hfail v (by simp)) ⟨b, hb, by simp only; omega⟩
  refine ⟨_, hws ▸ (runFor_add 1 hrun).trans (runFor_step 0 hlast), ?_⟩
  simp [State.raiseTimeout, State.framesAfterTimeout, State.logged, hpk, hws]

/-- Settles O57: with no bound every failed read leaves budget. -/
theorem unboundedPollNeverPasses : Obligations.UnboundedPollNeverPasses := by
  intro s p vs rest ht hp hnone hfail ha
  obtain ⟨c, k, hrun⟩ := runFor_failedReads ht hp hfail (fun b hb => by cases hnone.symm.trans hb) ha
  exact ⟨_, hrun, rfl⟩

/-! ### One pass of the byte loop, request by request (R187, R188, R190) -/

/-- Settles O17, by what one step of a poll does; at u9 the arm write has been issued. -/
theorem transmitReadyPollRead : Obligations.TransmitReadyPollRead := by
  intro s ht
  refine ⟨s.poll pollXrdy (MicroPc.onPass .u9), s.regRead .irqStatusRaw, exec_rdIrqraw_poll ht rfl (by decide), ?_,
    fun hv => State.poll_pass _ hv,
    fun hv hl => State.poll_again _ (Bool.eq_false_iff.1 hv) hl,
    fun hv hl => State.poll_timeout_armed _ (.inl ht.2) (Bool.eq_false_iff.1 hv) hl⟩
  rw [State.poll_reqs]
  rfl

/-- What a zero-extended byte changes in the controller, but for the counter (R188, log 31). -/
theorem Controller.write_data_byte (k : Nat) (b : Byte) (c : Controller) :
    c.write k .data (zext32 b) =
      { c with
        data := zext32 b, txBytes := c.txBytes ++ [b], byteCounter := (c.write k .data (zext32 b)).byteCounter
        dataEmpty := false } := by
  simp only [Controller.write, Controller.writeData_byte]

/-- Settles O18, by what the write of a zero-extended byte does. -/
theorem wrDataSendsTheIndexedByte : Obligations.WrDataSendsTheIndexedByte := by
  intro s b ht hb
  have hm : s.microRequest = some (.write .data (zext32 b)) := by simp [State.microRequest, ht.2, hb]
  refine ⟨{ s.regWrite .data (zext32 b) with pc := .u11 },
    by rw [exec, execWrData, State.issueWrite_micro _ ht hm], ?_, fun hne => ?_⟩
  · rw [← zext32_eq_wordOf]
    exact congrArg (fun c => { s.regWrite .data (zext32 b) with pc := .u11, ctrl := c })
      (s.ctrl.write_data_byte s.reqs b)
  · have hdown : (s.ctrl.write s.reqs .data (zext32 b)).byteCounter = s.ctrl.byteCounter - 1 :=
      congrArg Controller.byteCounter (Controller.write_data_zext32 s.reqs b hne)
    simp only [State.regWrite_ctrl, hdown]
    bv_omega

/-- Settles O19: the clear is of one bit, and below the count the byte index does not wrap. -/
theorem clrXrdyAdvancesTheByteIndex : Obligations.ClrXrdyAdvancesTheByteIndex := by
  intro s ht hlt
  have hm : s.microRequest = some (.write .irqStatusRaw xrdyClr) := by simp [State.microRequest, ht.2]
  have hnowrap : (s.bi + 1).toNat = s.bi.toNat + 1 := by bv_omega
  refine ⟨(s.regWrite .irqStatusRaw xrdyClr).nextByte,
    by rw [exec, execClrXrdy, State.issueWrite_micro _ ht hm], ?_, hnowrap,
    Controller.write_irqStatusRaw_flag (by decide) (by decide)⟩
  rw [← hnowrap]
  exact congrArg (fun c => { (s.regWrite .irqStatusRaw xrdyClr).nextByte with ctrl := c })
    (s.ctrl.write_xrdyClr s.reqs)

end Sys2Proof.Machine

/-! ## Family 44_command_sequencer: RUNTABLE, the table entry REGWR and a whole table (R200 to R211) -/

namespace Sys2Proof.Machine

/-! ### Acceptance and refusal (R202, R208) -/

/-- A RUNTABLE that has been accepted, before the table loop's first test (R202, R62). -/
def State.acceptTable (sa : Nat) (table : List CommandEntry) (s : State) : State :=
  { s with
    op := .runtable, res := .none, sa := BitVec.ofNat 7 sa, tbl := table, tlen := table.length, ci := 0, pk := 0
    pc := .u0 }

/-- A RUNTABLE that meets every check is accepted, and the table loop makes its first test (R202, R208). -/
theorem exec_runtable_accepted {s : State} {sa : Nat} (table : List CommandEntry) (ho : s.op = .none)
    (hc : s.cfgd = true) (hsa : sa ≤ 0x7F) :
    exec (.runtable sa table.length table) s = .next (s.acceptTable sa table).tableLoop := by
  rw [exec, execRuntable, if_neg (not_not_intro ho), if_neg (by simp [hc]), if_neg (by omega),
    if_neg (not_not_intro rfl)]
  rfl

/-- Settles O25: with an entry the table loop's first test leaves the accepted state, without one it completes. -/
theorem runtableAccepted : Obligations.RuntableAccepted := by
  intro s sa table ho hc hsa
  have hsa7 : (BitVec.ofNat 7 sa).toNat = sa := Nat.mod_eq_of_lt (by omega)
  refine ⟨_, exec_runtable_accepted table ho hc hsa, by rw [State.tableLoop_sa]; exact hsa7, fun hne => ?_, ?_⟩
  · rw [State.tableLoop_more (List.length_pos_of_ne_nil hne)]
    rfl
  · rintro rfl
    rw [State.tableLoop_done (Nat.lt_irrefl 0)]
    rfl

/-- Settles O26, check by check. -/
theorem runtableAndCfgbusRefused : Obligations.RuntableAndCfgbusRefused := by
  intro s sa tlen table psc scll sclh
  refine ⟨fun ho => if_pos ho, fun ho hc => ?_, fun ho hc hsa => ?_, fun ho hc hsa hlen => ?_, fun ho => if_pos ho⟩
  · rw [exec, execRuntable, if_neg (not_not_intro ho), if_pos hc]
  · rw [exec, execRuntable, if_neg (not_not_intro ho), if_neg (by simp [hc]), if_pos hsa]
  · rw [exec, execRuntable, if_neg (not_not_intro ho), if_neg (by simp [hc]), if_neg (by omega), if_pos hlen]

/-- Settles O27: the three conditions are the check of REGWR. -/
theorem regwrStartsTheEntrysTransaction : Obligations.RegwrStartsTheEntrysTransaction :=
  fun _ _ _ ho hp hci => if_pos ⟨ho, hp, hci⟩

/-! ### A whole table whose polls all pass (R203 to R206) -/

/-- An entry's transaction, complete, returns to the table loop with the next index (R206). -/
theorem State.transactionDone_runtable {s : State} (h : s.op = .runtable) :
    s.transactionDone =
      State.tableLoop { s with frames := s.frames ++ [.frame s.sa s.pay], pc := .u0, ci := s.ci + 1
                               ctrl := { s.ctrl with framing := false } } := by
  simp [State.transactionDone, h]

/-- The table loop after an entry's transaction: its events logged, its frame recorded, and the next index due (R24,
R205, R206). -/
def State.afterEntry (e : EntryRun) (rest : List Word) (c : Controller) (k n : Nat) (s : State) : State :=
  { s.logged (transactionEvents s.par s.sa e.bytes e.rst e.bus e.done) rest c k with
    frames := s.frames ++ [.frame s.sa [e.entry.reg, e.entry.val]], pay := [e.entry.reg, e.entry.val], cnt := 2
    bi := 2, pk := n, pc := .u0, ci := s.ci + 1 }

/-- The entry due runs its two-byte transaction, from the table loop back to it (R203, R205, R206). -/
theorem runFor_entry {s : State} {e : EntryRun} {rest : List Word} (ho : s.op = .runtable) (hp : s.pc = .u0)
    (hci : s.ci < s.tlen) (he : s.tbl[s.ci]? = some e.entry)
    (hpass : TransactionPasses s.par e.bytes e.rst e.bus e.done)
    (ha : s.answers = transactionAnswers e.bytes e.rst e.bus e.done ++ rest) :
    ∃ c k n, runFor (1 + transactionSteps e.bytes e.rst e.bus e.done) s =
      .next (s.afterEntry e rest c k n).tableLoop := by
  obtain ⟨c, k, n, hrun⟩ := runFor_transaction
    (s := { s with pay := [e.entry.reg, e.entry.val], cnt := 2, pk := 0, pc := .u1 })
    ⟨.inr ho, rfl⟩ ⟨rfl, by simp⟩ rfl hpass ha
  refine ⟨{ c with framing := false }, k, n, ?_⟩
  rw [Nat.add_comm, runFor_step _ (step_entry ho hp hci he), hrun, State.transactionDone_runtable (by exact ho)]
  rfl

/-- From the table loop's test on, the entries from the current index to the end run in order, each once, and the table
is then done (R203, R206). -/
theorem runFor_tableLoop {s : State} {runs : List EntryRun} {rest : List Word} (ho : s.op = .runtable)
    (hp : s.pc = .u0) (htbl : s.tbl.drop s.ci = runs.map EntryRun.entry) (hlen : s.tlen = s.ci + runs.length)
    (hpass : ∀ e ∈ runs, TransactionPasses s.par e.bytes e.rst e.bus e.done)
    (ha : s.answers = runs.flatMap (fun e => transactionAnswers e.bytes e.rst e.bus e.done) ++ rest) :
    ∃ t : State, runFor (runs.map fun e => 1 + transactionSteps e.bytes e.rst e.bus e.done).sum s.tableLoop = .next t ∧
      t.trace = s.trace ++ runs.flatMap (fun e => transactionEvents s.par s.sa e.bytes e.rst e.bus e.done) ∧
      t.frames = s.frames ++ runs.map (fun e => BusFrame.frame s.sa [e.entry.reg, e.entry.val]) ∧
      t.op = .none ∧ t.res = .ok ∧ t.ci = s.tlen ∧ t.answers = rest := by
  induction runs generalizing s with
  | nil =>
    have hend : s.tlen = s.ci := hlen
    rw [State.tableLoop_done (by omega)]
    exact ⟨_, rfl, by simp, by simp, rfl, rfl, hend.symm, ha⟩
  | cons e es ih =>
    have hci : s.ci < s.tlen := by rw [hlen, List.length_cons]; omega
    have he : s.tbl[s.ci]? = some e.entry := by rw [← List.head?_drop, htbl]; rfl
    have hdrop : s.tbl.drop (s.ci + 1) = es.map EntryRun.entry := by rw [← List.tail_drop, htbl]; rfl
    have hnext : s.tlen = s.ci + 1 + es.length := by rw [hlen, List.length_cons]; omega
    obtain ⟨c, k, n, hentry⟩ := runFor_entry ho hp hci he (hpass e List.mem_cons_self)
      (rest := es.flatMap (fun e => transactionAnswers e.bytes e.rst e.bus e.done) ++ rest) (by simp [ha])
    obtain ⟨t, hrun, htrace, hframes, hdone⟩ := ih (s := s.afterEntry e _ c k n) ho rfl hdrop hnext
      (fun x hx => hpass x (List.mem_cons_of_mem e hx)) rfl
    refine ⟨t, ?_, ?_, ?_, hdone⟩
    · rw [State.tableLoop_more hci, List.map_cons, List.sum_cons, runFor_add _ hentry, hrun]
    · simp [htrace, State.afterEntry, State.logged]
    · simp [hframes, State.afterEntry, State.logged]

/-- Settles O54: a table that is not empty is in its loop at entry 0. -/
theorem tableRunsEveryEntryInOrder : Obligations.TableRunsEveryEntryInOrder := by
  intro s runs rest ho hp hci hne htbl hlen hpass ha
  have hdue : s.ci < s.tlen := by rw [hci, hlen]; exact List.length_pos_of_ne_nil hne
  obtain ⟨t, hrun, htrace, hframes, hop, hres, hend, hans⟩ := runFor_tableLoop ho hp (by rw [hci]; exact htbl)
    (by rw [hci, Nat.zero_add]; exact hlen) hpass ha
  rw [State.tableLoop_more hdue] at hrun
  exact ⟨t, hrun, htrace, hframes, hop, hres, hend.trans hlen, hans⟩

end Sys2Proof.Machine

/-! ## Family 45_servo_encoder: the reference angles and the table of an angle (R217 to R221) -/

namespace Sys2Proof.Machine

/-- The encoder is the three reference points and nothing else (R217, R221). -/
theorem angleToOffCount_eq_some_iff {angle : Int} {off : BitVec 16} :
    angleToOffCount angle = some off ↔
      (angle = -90 ∧ off = 0x0CC) ∨ (angle = 0 ∧ off = 0x132) ∨ (angle = 90 ∧ off = 0x199) := by
  constructor
  · intro h
    unfold angleToOffCount at h
    split_ifs at h with hn hz hp <;> cases h
    · exact .inl ⟨hn, rfl⟩
    · exact .inr (.inl ⟨hz, rfl⟩)
    · exact .inr (.inr ⟨hp, rfl⟩)
  · rintro (⟨rfl, rfl⟩ | ⟨rfl, rfl⟩ | ⟨rfl, rfl⟩) <;> rfl

/-- Every off count fits the 12 bits of the on and off registers (R220). -/
theorem angleToOffCount_lt {angle : Int} {off : BitVec 16} (h : angleToOffCount angle = some off) :
    off.toNat < 4096 := by
  rcases angleToOffCount_eq_some_iff.mp h with ⟨-, rfl⟩ | ⟨-, rfl⟩ | ⟨-, rfl⟩ <;> decide

/-- The encoder is monotonic (R218): reference points in ascending order of angle have ascending off counts. -/
theorem angleToOffCount_mono {a b : Int} {x y : BitVec 16} (ha : angleToOffCount a = some x)
    (hb : angleToOffCount b = some y) (hab : a < b) : x.toNat ≤ y.toNat := by
  rcases angleToOffCount_eq_some_iff.mp ha with ⟨rfl, rfl⟩ | ⟨rfl, rfl⟩ | ⟨rfl, rfl⟩ <;>
    rcases angleToOffCount_eq_some_iff.mp hb with ⟨rfl, rfl⟩ | ⟨rfl, rfl⟩ | ⟨rfl, rfl⟩ <;>
    revert hab <;> decide

/-- The high and the low byte the table holds make up an off count of 12 bits (R219). -/
theorem offCount_toNat_eq_bytes {off : BitVec 16} (h : off.toNat < 4096) :
    off.toNat = ((off.extractLsb' 8 4).setWidth 8 : Byte).toNat * 256 + (off.extractLsb' 0 8 : Byte).toNat := by
  simp only [BitVec.toNat_setWidth, BitVec.extractLsb'_toNat, Nat.shiftRight_eq_div_pow]
  omega

/-- Settles O58: an angle with an off count is one of the three. -/
theorem servoReferenceAngles : Obligations.ServoReferenceAngles := by
  refine ⟨rfl, rfl, rfl, fun angle hz hp hn => Option.eq_none_iff_forall_ne_some.mpr fun off h => ?_⟩
  rcases angleToOffCount_eq_some_iff.mp h with ⟨ha, -⟩ | ⟨ha, -⟩ | ⟨ha, -⟩
  · exact hn ha
  · exact hz ha
  · exact hp ha

/-- Settles O59: the off counts have 12 bits and ascend with the angle. -/
theorem servoMonotonicAndTwelveBits : Obligations.ServoMonotonicAndTwelveBits :=
  fun _ _ _ _ ha hb => ⟨Nat.le_of_lt_succ (angleToOffCount_lt ha), angleToOffCount_mono ha hb⟩

/-- Settles O60: the off count has 12 bits, so its low eight and its next four are all of it. -/
theorem servoTableLowByteFirst : Obligations.ServoTableLowByteFirst := by
  intro p angle off h
  refine ⟨off.extractLsb' 0 8, (off.extractLsb' 8 4).setWidth 8, ?_, offCount_toNat_eq_bytes (angleToOffCount_lt h)⟩
  rw [servoTable, h]
  rfl

end Sys2Proof.Machine

/-! ## Family 70_reset_and_hazards: what is refused while an operation runs (R115, R203, R205, R268, R273) -/

namespace Sys2Proof.Machine

/-- Settles O34: each of the twelve issues the request of its own words, and this is not the one SEQ emits. -/
theorem competingRequestRefused : Obligations.CompetingRequestRefused := by
  intro s i w ho hi he hw
  have not_emitted (q : Request) (hq : encode i = .rb q.word) : s.request ≠ some q := fun hs =>
    hw (by rw [hs, Option.map_some, Encoded.rb.inj (hq.symm.trans he)])
  rcases exec_issues hi with ⟨r, v, f, hq, hx⟩ | ⟨r, f, hq, hx⟩
  · rw [hx, State.issueWrite_competing f ho (not_emitted _ hq)]
  · rw [hx, State.issueRead_competing f ho (not_emitted _ hq)]

/-- During an operation an access to a mapped register competes with SEQ's own (R268). -/
theorem State.atOffset_busy {s : State} (r : CtrlReg) (f : CtrlReg → State → State) (ho : s.op ≠ .none) :
    s.atOffset r.offset f = .refused .competingAccess :=
  (State.atOffset_mapped f).trans (State.primitive_busy (f r) ho)

/-- Settles O35: the three primitives are accesses of their register, and REGWR is checked against the table loop. -/
theorem outOfPlaceRefused : Obligations.OutOfPlaceRefused := by
  intro s r v mask value reg val
  refine ⟨fun ho => ⟨?read, ?write, ?modify⟩, fun hloop => ?regwr⟩
  case read | write | modify => exact State.atOffset_busy r _ ho
  case regwr => exact if_neg hloop

end Sys2Proof.Machine
